-- ==== Sys2Proof/Word.lean ====
section
/-! DEFINITION. The word types of the VIC block: bytes of the byte spaces, the 32-bit command word and the
64-bit operand, result and lane width (rules R7, R21, R100). -/

namespace Sys2Proof

/-- A byte of a byte space (rule R7: "A byte has 8 bits"). -/
abbrev Byte := BitVec 8

/-- A 32-bit word: a command word `CW`, a u32 or an s32 (rules R7, R100). -/
abbrev Word := BitVec 32

/-- A 64-bit word: `ARG`, `R`, a lane of `V`, a u64 or an s64 (rules R7, R21). -/
abbrev DWord := BitVec 64

/-- A byte string, first byte first (rule R8). -/
abbrev Bytes := List Byte

end Sys2Proof
end

