-- ==== Sys2Proof/Config.lean ====
section
/-! DEFINITION. What the spec fixes (rule R5), what it leaves to the implementation (the capacities of rule R6)
and the values this model names where the spec leaves a reset value open (rules R39, R384). -/

namespace Sys2Proof.Config

/-- Lanes of the vector file `V` (rule R6: `VLEN`, fixed). -/
def vlen : Nat := 128

/-- Most raw values a delta encoder buffers (rule R5: `BUF_VALUES`). -/
def bufValues : Nat := 129

/-- Largest block size of the delta codec (rule R5: `BLK_MAX`). -/
def blkMax : Nat := 128

/-- Values or booleans in an octuplet (rule R5: `OCT`). -/
def octuplet : Nat := 8

/-- Largest width of the hybrid codec and of the 32-bit pack commands (rules R5, R102). -/
def maxWidth32 : Nat := 32

/-- Largest width of the 64-bit pack commands (rule R102). -/
def maxWidth64 : Nat := 64

/-- Largest count of a pack command (rule R102). -/
def maxCount : Nat := 128

/-- Largest repeat count of an RLE run (rule R227). -/
def maxRun : Nat := 2 ^ 31 - 1

/-- The capacities the spec leaves to the implementation, with the spec's defaults (rule R6).
The model takes them as an argument: they stand in the state as plain data that no step changes. DESIGN CHOICE (log
entry 4); safe. -/
structure Params where
  /-- bytes in the output buffer OB -/
  obcap : Nat := 65536
  /-- bytes in the input buffer IB -/
  ibcap : Nat := 65536
  /-- bytes in each encoder unit's staging buffer -/
  stcap : Nat := 65536
  /-- bytes in each hybrid engine's pending bit-packed run buffer -/
  prcap : Nat := 65536
  /-- values in the raw buffer of each of units 2 and 3 -/
  rawcap : Nat := 16384
  deriving DecidableEq, Repr

/-- The spec's default capacities (rule R6). -/
def defaultParams : Params := {}

/-- The constraints of rule R6: every capacity at least 1 (`PRCAP` at least 32) and below 2^31. -/
abbrev Params.Admissible (p : Params) : Prop :=
  1 ≤ p.obcap ∧ p.obcap < 2 ^ 31 ∧ 1 ≤ p.ibcap ∧ p.ibcap < 2 ^ 31 ∧ 1 ≤ p.stcap ∧ p.stcap < 2 ^ 31 ∧
    32 ≤ p.prcap ∧ p.prcap < 2 ^ 31 ∧ 1 ≤ p.rawcap ∧ p.rawcap < 2 ^ 31

/-- The byte an IB address that nothing has written reads as. DESIGN CHOICE (log entry 2): rule R384 leaves it
open; unsafe, since a proof could lean on the zero. -/
def ibUnwritten : Byte := 0

/-- The value of `R` at reset. DESIGN CHOICE (log entry 1): rule R39 leaves it unspecified; unsafe. -/
def resetResult : DWord := 0

/-- The value of every lane of `V` at reset. DESIGN CHOICE (log entry 1): rule R39 leaves it unspecified; unsafe. -/
def resetLane : DWord := 0

end Sys2Proof.Config
end

