-- ==== Sys2Proof/Syntax.lean ====
section
/-! DEFINITION. The command port's word pair and the whole command list of rule R104: one constructor of `Instr`
per row of spec/opcode_table.json. -/

namespace Sys2Proof

/-- A command as the host presents it: a 32-bit command word and a 64-bit operand (rule R100). -/
structure Command where
  cw : Word
  arg : DWord
  deriving DecidableEq, Repr

/-- Why a command word is illegal (rule R105). The block reports all of them as `ILLEGAL_COMMAND`. -/
inductive DecodeError where
  /-- `OPC` is not in rule R104 -/
  | unknownOpcode
  /-- the `ZERO` field is not 0 -/
  | zeroFieldSet
  /-- `WIDTH` must be 0 and is not -/
  | widthNotZero
  /-- `IMM8` must be 0 and is not -/
  | imm8NotZero
  /-- `WIDTH` is above its range of rule R102 -/
  | widthOutOfRange
  /-- `IMM8` is above its range of rule R102 -/
  | imm8OutOfRange
  deriving DecidableEq, Repr

/-- The 77 commands of rule R104. Every constructor carries the command's 64-bit operand `arg`, which is always
present on the port (rule R100), whether or not the command uses it; `byte`, `lane` and `count` are the field
`IMM8` and `width` the field `WIDTH` of the command word, for the commands that have them (rule R102). -/
inductive Instr where
  /-- `NOP`: no effect (rule R131). -/
  | nop (arg : DWord)
  /-- `OBCLR`: discard the contents of OB (rule R132). -/
  | obclr (arg : DWord)
  /-- `OBPOKE`: overwrite one byte of OB; `byte` is `IMM8`, the offset is `arg[31:0]` (rule R133). -/
  | obpoke (byte : Byte) (arg : DWord)
  /-- `RCATT`: attach the main cursor to the first `arg[31:0]` bytes of IB (rule R134). -/
  | rcatt (arg : DWord)
  /-- `RCSLICE`: narrow the main cursor to the next `arg[31:0]` bytes (rule R135). -/
  | rcslice (arg : DWord)
  /-- `RCUNSL`: drop every narrowing of the main cursor (rule R136). -/
  | rcunsl (arg : DWord)
  /-- `VSET`: write lane `lane` (`IMM8`) of `V` with `arg` (rule R137). -/
  | vset (lane : Byte) (arg : DWord)
  /-- `BITW32`: bit width of a u32 (rule R138). -/
  | bitw32 (arg : DWord)
  /-- `BITW64`: bit width of a u64 (rule R139). -/
  | bitw64 (arg : DWord)
  /-- `ZZE32`: zigzag-map an s32 (rule R140). -/
  | zze32 (arg : DWord)
  /-- `ZZE64`: zigzag-map an s64 (rule R141). -/
  | zze64 (arg : DWord)
  /-- `ZZD32`: inverse zigzag of a u32 (rule R142). -/
  | zzd32 (arg : DWord)
  /-- `ZZD64`: inverse zigzag of a u64 (rule R143). -/
  | zzd64 (arg : DWord)
  /-- `WFIX32`: append four bytes, little-endian (rule R161). -/
  | wfix32 (arg : DWord)
  /-- `WFIX64`: append eight bytes, little-endian (rule R162). -/
  | wfix64 (arg : DWord)
  /-- `WVAR32`: append a varint of a u32 (rule R163). -/
  | wvar32 (arg : DWord)
  /-- `WVAR64`: append a varint of a u64 (rule R164). -/
  | wvar64 (arg : DWord)
  /-- `WZZ32`: append a zigzag varint of an s32 (rule R165). -/
  | wzz32 (arg : DWord)
  /-- `WZZ64`: append a zigzag varint of an s64 (rule R166). -/
  | wzz64 (arg : DWord)
  /-- `WPACK32`: append `count` lanes (bits 31:0) packed at `width` bits (rule R167). -/
  | wpack32 (width count : Byte) (arg : DWord)
  /-- `WPACK64`: append `count` lanes packed at `width` bits (rule R168). -/
  | wpack64 (width count : Byte) (arg : DWord)
  /-- `WPBOOL`: append eight booleans as one byte (rule R169). -/
  | wpbool (arg : DWord)
  /-- `RFIX32`: read four bytes, little-endian (rule R181). -/
  | rfix32 (arg : DWord)
  /-- `RFIX64`: read eight bytes, little-endian (rule R182). -/
  | rfix64 (arg : DWord)
  /-- `RVAR32`: read a 32-bit varint (rule R183). -/
  | rvar32 (arg : DWord)
  /-- `RVAR64`: read a 64-bit varint (rule R184). -/
  | rvar64 (arg : DWord)
  /-- `RZZ32`: read a zigzag varint as an s32 (rule R185). -/
  | rzz32 (arg : DWord)
  /-- `RZZ64`: read a zigzag varint as an s64 (rule R186). -/
  | rzz64 (arg : DWord)
  /-- `RPACK32`: read `count` values of `width` bits into `V` (rule R187). -/
  | rpack32 (width count : Byte) (arg : DWord)
  /-- `RPACK64`: read `count` values of `width` bits into `V` (rule R188). -/
  | rpack64 (width count : Byte) (arg : DWord)
  /-- `RPBOOL`: read one byte as eight booleans (rule R189). -/
  | rpbool (arg : DWord)
  /-- `ENC.0`: encode one value, unit 0 (boolean) (rule R202). -/
  | enc0 (arg : DWord)
  /-- `ENC.1`: encode one value, unit 1 (hybrid, fixed width) (rule R230). -/
  | enc1 (arg : DWord)
  /-- `ENC.2`: encode one value, unit 2 (hybrid, self-width) (rule R237). -/
  | enc2 (arg : DWord)
  /-- `ENC.3`: encode one value, unit 3 (hybrid, width-prefixed) (rule R243). -/
  | enc3 (arg : DWord)
  /-- `ENC.4`: encode one value, unit 4 (32-bit delta) (rule R290). -/
  | enc4 (arg : DWord)
  /-- `ENC.5`: encode one value, unit 5 (64-bit delta) (rule R296). -/
  | enc5 (arg : DWord)
  /-- `FIN.0`: finish, unit 0 (boolean) (rule R203). -/
  | fin0 (arg : DWord)
  /-- `FIN.1`: finish, unit 1 (hybrid, fixed width) (rule R231). -/
  | fin1 (arg : DWord)
  /-- `FIN.2`: finish, unit 2 (hybrid, self-width) (rule R238). -/
  | fin2 (arg : DWord)
  /-- `FIN.3`: finish, unit 3 (hybrid, width-prefixed) (rule R244). -/
  | fin3 (arg : DWord)
  /-- `FIN.4`: finish, unit 4 (32-bit delta) (rule R291). -/
  | fin4 (arg : DWord)
  /-- `FIN.5`: finish, unit 5 (64-bit delta) (rule R297). -/
  | fin5 (arg : DWord)
  /-- `RST.0`: reset, unit 0 (boolean) (rule R204). -/
  | rst0 (arg : DWord)
  /-- `RST.1`: reset, unit 1 (hybrid, fixed width) (rule R232). -/
  | rst1 (width : Byte) (arg : DWord)
  /-- `RST.2`: reset, unit 2 (hybrid, self-width) (rule R239). -/
  | rst2 (arg : DWord)
  /-- `RST.3`: reset, unit 3 (hybrid, width-prefixed) (rule R245). -/
  | rst3 (arg : DWord)
  /-- `RST.4`: reset, unit 4 (32-bit delta) (rule R292). -/
  | rst4 (arg : DWord)
  /-- `RST.5`: reset, unit 5 (64-bit delta) (rule R298). -/
  | rst5 (arg : DWord)
  /-- `SIZE.0`: staged size, unit 0 (boolean) (rule R205). -/
  | size0 (arg : DWord)
  /-- `SIZE.1`: staged size, unit 1 (hybrid, fixed width) (rule R233). -/
  | size1 (arg : DWord)
  /-- `SIZE.2`: staged size, unit 2 (hybrid, self-width) (rule R240). -/
  | size2 (arg : DWord)
  /-- `SIZE.3`: staged size, unit 3 (hybrid, width-prefixed) (rule R246). -/
  | size3 (arg : DWord)
  /-- `SIZE.4`: staged size, unit 4 (32-bit delta) (rule R293). -/
  | size4 (arg : DWord)
  /-- `SIZE.5`: staged size, unit 5 (64-bit delta) (rule R299). -/
  | size5 (arg : DWord)
  /-- `EST.0`: estimated size, unit 0 (boolean) (rule R206). -/
  | est0 (arg : DWord)
  /-- `EST.1`: estimated size, unit 1 (hybrid, fixed width) (rule R234). -/
  | est1 (arg : DWord)
  /-- `EST.2`: estimated size, unit 2 (hybrid, self-width) (rule R241). -/
  | est2 (arg : DWord)
  /-- `EST.3`: estimated size, unit 3 (hybrid, width-prefixed) (rule R247). -/
  | est3 (arg : DWord)
  /-- `EST.4`: estimated size, unit 4 (32-bit delta) (rule R294). -/
  | est4 (arg : DWord)
  /-- `EST.5`: estimated size, unit 5 (64-bit delta) (rule R300). -/
  | est5 (arg : DWord)
  /-- `WTO.0`: finish and append to OB, unit 0 (boolean) (rule R207). -/
  | wto0 (arg : DWord)
  /-- `WTO.1`: finish and append to OB, unit 1 (hybrid, fixed width) (rule R235). -/
  | wto1 (arg : DWord)
  /-- `WTO.2`: finish and append to OB, unit 2 (hybrid, self-width) (rule R242). -/
  | wto2 (arg : DWord)
  /-- `WTO.3`: finish and append to OB, unit 3 (hybrid, width-prefixed) (rule R248). -/
  | wto3 (arg : DWord)
  /-- `WTO.4`: finish and append to OB, unit 4 (32-bit delta) (rule R295). -/
  | wto4 (arg : DWord)
  /-- `WTO.5`: finish and append to OB, unit 5 (64-bit delta) (rule R301). -/
  | wto5 (arg : DWord)
  /-- `DINIT.0`: construct decoder, unit 0 (boolean) (rule R208). -/
  | dinit0 (arg : DWord)
  /-- `DINIT.1`: construct decoder, unit 1 (hybrid, fixed width) (rule R262). -/
  | dinit1 (width : Byte) (arg : DWord)
  /-- `DINIT.3`: construct decoder, unit 3 (hybrid, width-prefixed) (rule R264). -/
  | dinit3 (arg : DWord)
  /-- `DINIT.4`: construct decoder, unit 4 (32-bit delta) (rule R324). -/
  | dinit4 (arg : DWord)
  /-- `DINIT.5`: construct decoder, unit 5 (64-bit delta) (rule R326). -/
  | dinit5 (arg : DWord)
  /-- `DEC.0`: decode one value, unit 0 (boolean) (rule R209). -/
  | dec0 (arg : DWord)
  /-- `DEC.1`: decode one value, unit 1 (hybrid, fixed width) (rule R263). -/
  | dec1 (arg : DWord)
  /-- `DEC.3`: decode one value, unit 3 (hybrid, width-prefixed) (rule R265). -/
  | dec3 (arg : DWord)
  /-- `DEC.4`: decode one value, unit 4 (32-bit delta) (rule R325). -/
  | dec4 (arg : DWord)
  /-- `DEC.5`: decode one value, unit 5 (64-bit delta) (rule R327). -/
  | dec5 (arg : DWord)
  deriving DecidableEq, Repr

end Sys2Proof
end

