-- ==== Sys2Proof/WellFormed.lean ====
section
/-! DEFINITION. Field ranges: which terms of `Instr` stand for a legal command word (rule R102). -/

namespace Sys2Proof

/-- The field ranges of rule R102. A command without field operands is always well formed; the operand `arg` is
never checked (rule R345: "Legality depends on the command word alone"). -/
def Instr.wf : Instr → Bool
  | .nop _ => true
  | .obclr _ => true
  | .obpoke _ _ => true
  | .rcatt _ => true
  | .rcslice _ => true
  | .rcunsl _ => true
  | .vset lane _ => decide (lane.toNat ≤ 127)
  | .bitw32 _ => true
  | .bitw64 _ => true
  | .zze32 _ => true
  | .zze64 _ => true
  | .zzd32 _ => true
  | .zzd64 _ => true
  | .wfix32 _ => true
  | .wfix64 _ => true
  | .wvar32 _ => true
  | .wvar64 _ => true
  | .wzz32 _ => true
  | .wzz64 _ => true
  | .wpack32 width count _ => decide (width.toNat ≤ Config.maxWidth32 ∧ count.toNat ≤ Config.maxCount)
  | .wpack64 width count _ => decide (width.toNat ≤ Config.maxWidth64 ∧ count.toNat ≤ Config.maxCount)
  | .wpbool _ => true
  | .rfix32 _ => true
  | .rfix64 _ => true
  | .rvar32 _ => true
  | .rvar64 _ => true
  | .rzz32 _ => true
  | .rzz64 _ => true
  | .rpack32 width count _ => decide (width.toNat ≤ Config.maxWidth32 ∧ count.toNat ≤ Config.maxCount)
  | .rpack64 width count _ => decide (width.toNat ≤ Config.maxWidth64 ∧ count.toNat ≤ Config.maxCount)
  | .rpbool _ => true
  | .enc0 _ => true
  | .enc1 _ => true
  | .enc2 _ => true
  | .enc3 _ => true
  | .enc4 _ => true
  | .enc5 _ => true
  | .fin0 _ => true
  | .fin1 _ => true
  | .fin2 _ => true
  | .fin3 _ => true
  | .fin4 _ => true
  | .fin5 _ => true
  | .rst0 _ => true
  | .rst1 width _ => decide (width.toNat ≤ Config.maxWidth32)
  | .rst2 _ => true
  | .rst3 _ => true
  | .rst4 _ => true
  | .rst5 _ => true
  | .size0 _ => true
  | .size1 _ => true
  | .size2 _ => true
  | .size3 _ => true
  | .size4 _ => true
  | .size5 _ => true
  | .est0 _ => true
  | .est1 _ => true
  | .est2 _ => true
  | .est3 _ => true
  | .est4 _ => true
  | .est5 _ => true
  | .wto0 _ => true
  | .wto1 _ => true
  | .wto2 _ => true
  | .wto3 _ => true
  | .wto4 _ => true
  | .wto5 _ => true
  | .dinit0 _ => true
  | .dinit1 width _ => decide (width.toNat ≤ Config.maxWidth32)
  | .dinit3 _ => true
  | .dinit4 _ => true
  | .dinit5 _ => true
  | .dec0 _ => true
  | .dec1 _ => true
  | .dec3 _ => true
  | .dec4 _ => true
  | .dec5 _ => true

end Sys2Proof
end

