-- ==== Sys2Proof/Decode.lean ====
section
/-! DEFINITION. Decoding a command (rules R100 to R107), total and rejecting by name, and the encoder. -/

namespace Sys2Proof

/-- `CW[31:24]` (rule R100). -/
def opcField (cw : Word) : Byte := cw.extractLsb' 24 8

/-- `CW[23:16]` (rule R100). -/
def widthField (cw : Word) : Byte := cw.extractLsb' 16 8

/-- `CW[15:8]` (rule R100). -/
def imm8Field (cw : Word) : Byte := cw.extractLsb' 8 8

/-- `CW[7:0]` (rule R100). -/
def zeroField (cw : Word) : Byte := cw.extractLsb' 0 8

/-- A command that uses neither `WIDTH` nor `IMM8`: both must be 0 (rule R102). -/
def decodeBare (width imm8 : Byte) (i : Instr) : Except DecodeError Instr :=
  if width ≠ 0 then .error .widthNotZero else if imm8 ≠ 0 then .error .imm8NotZero else .ok i

/-- A command that uses `IMM8` up to `max` and no `WIDTH` (rule R102). -/
def decodeImm8 (max : Nat) (width imm8 : Byte) (i : Instr) : Except DecodeError Instr :=
  if width ≠ 0 then .error .widthNotZero else if max < imm8.toNat then .error .imm8OutOfRange else .ok i

/-- A command that uses `WIDTH` up to `max` and no `IMM8` (rule R102). -/
def decodeWidth (max : Nat) (width imm8 : Byte) (i : Instr) : Except DecodeError Instr :=
  if max < width.toNat then .error .widthOutOfRange else if imm8 ≠ 0 then .error .imm8NotZero else .ok i

/-- A pack command: `WIDTH` up to `max`, `IMM8` a count (rule R102). -/
def decodePack (max : Nat) (width imm8 : Byte) (i : Instr) : Except DecodeError Instr :=
  if max < width.toNat then .error .widthOutOfRange
  else if Config.maxCount < imm8.toNat then .error .imm8OutOfRange else .ok i

/-- The opcode map of rules R103 and R104 with the field checks of rule R102. -/
def decodeFields (opc width imm8 : Byte) (arg : DWord) : Except DecodeError Instr :=
  match opc.toNat with
  | 0x00 => decodeBare width imm8 (.nop arg)
  | 0x01 => decodeBare width imm8 (.obclr arg)
  | 0x02 => decodeImm8 255 width imm8 (.obpoke imm8 arg)
  | 0x03 => decodeBare width imm8 (.rcatt arg)
  | 0x04 => decodeBare width imm8 (.rcslice arg)
  | 0x05 => decodeBare width imm8 (.rcunsl arg)
  | 0x06 => decodeImm8 127 width imm8 (.vset imm8 arg)
  | 0x10 => decodeBare width imm8 (.bitw32 arg)
  | 0x11 => decodeBare width imm8 (.bitw64 arg)
  | 0x12 => decodeBare width imm8 (.zze32 arg)
  | 0x13 => decodeBare width imm8 (.zze64 arg)
  | 0x14 => decodeBare width imm8 (.zzd32 arg)
  | 0x15 => decodeBare width imm8 (.zzd64 arg)
  | 0x20 => decodeBare width imm8 (.wfix32 arg)
  | 0x21 => decodeBare width imm8 (.wfix64 arg)
  | 0x22 => decodeBare width imm8 (.wvar32 arg)
  | 0x23 => decodeBare width imm8 (.wvar64 arg)
  | 0x24 => decodeBare width imm8 (.wzz32 arg)
  | 0x25 => decodeBare width imm8 (.wzz64 arg)
  | 0x26 => decodePack Config.maxWidth32 width imm8 (.wpack32 width imm8 arg)
  | 0x27 => decodePack Config.maxWidth64 width imm8 (.wpack64 width imm8 arg)
  | 0x28 => decodeBare width imm8 (.wpbool arg)
  | 0x30 => decodeBare width imm8 (.rfix32 arg)
  | 0x31 => decodeBare width imm8 (.rfix64 arg)
  | 0x32 => decodeBare width imm8 (.rvar32 arg)
  | 0x33 => decodeBare width imm8 (.rvar64 arg)
  | 0x34 => decodeBare width imm8 (.rzz32 arg)
  | 0x35 => decodeBare width imm8 (.rzz64 arg)
  | 0x36 => decodePack Config.maxWidth32 width imm8 (.rpack32 width imm8 arg)
  | 0x37 => decodePack Config.maxWidth64 width imm8 (.rpack64 width imm8 arg)
  | 0x38 => decodeBare width imm8 (.rpbool arg)
  | 0x40 => decodeBare width imm8 (.enc0 arg)
  | 0x41 => decodeBare width imm8 (.enc1 arg)
  | 0x42 => decodeBare width imm8 (.enc2 arg)
  | 0x43 => decodeBare width imm8 (.enc3 arg)
  | 0x44 => decodeBare width imm8 (.enc4 arg)
  | 0x45 => decodeBare width imm8 (.enc5 arg)
  | 0x50 => decodeBare width imm8 (.fin0 arg)
  | 0x51 => decodeBare width imm8 (.fin1 arg)
  | 0x52 => decodeBare width imm8 (.fin2 arg)
  | 0x53 => decodeBare width imm8 (.fin3 arg)
  | 0x54 => decodeBare width imm8 (.fin4 arg)
  | 0x55 => decodeBare width imm8 (.fin5 arg)
  | 0x60 => decodeBare width imm8 (.rst0 arg)
  | 0x61 => decodeWidth Config.maxWidth32 width imm8 (.rst1 width arg)
  | 0x62 => decodeBare width imm8 (.rst2 arg)
  | 0x63 => decodeBare width imm8 (.rst3 arg)
  | 0x64 => decodeBare width imm8 (.rst4 arg)
  | 0x65 => decodeBare width imm8 (.rst5 arg)
  | 0x70 => decodeBare width imm8 (.size0 arg)
  | 0x71 => decodeBare width imm8 (.size1 arg)
  | 0x72 => decodeBare width imm8 (.size2 arg)
  | 0x73 => decodeBare width imm8 (.size3 arg)
  | 0x74 => decodeBare width imm8 (.size4 arg)
  | 0x75 => decodeBare width imm8 (.size5 arg)
  | 0x80 => decodeBare width imm8 (.est0 arg)
  | 0x81 => decodeBare width imm8 (.est1 arg)
  | 0x82 => decodeBare width imm8 (.est2 arg)
  | 0x83 => decodeBare width imm8 (.est3 arg)
  | 0x84 => decodeBare width imm8 (.est4 arg)
  | 0x85 => decodeBare width imm8 (.est5 arg)
  | 0x90 => decodeBare width imm8 (.wto0 arg)
  | 0x91 => decodeBare width imm8 (.wto1 arg)
  | 0x92 => decodeBare width imm8 (.wto2 arg)
  | 0x93 => decodeBare width imm8 (.wto3 arg)
  | 0x94 => decodeBare width imm8 (.wto4 arg)
  | 0x95 => decodeBare width imm8 (.wto5 arg)
  | 0xA0 => decodeBare width imm8 (.dinit0 arg)
  | 0xA1 => decodeWidth Config.maxWidth32 width imm8 (.dinit1 width arg)
  | 0xA3 => decodeBare width imm8 (.dinit3 arg)
  | 0xA4 => decodeBare width imm8 (.dinit4 arg)
  | 0xA5 => decodeBare width imm8 (.dinit5 arg)
  | 0xB0 => decodeBare width imm8 (.dec0 arg)
  | 0xB1 => decodeBare width imm8 (.dec1 arg)
  | 0xB3 => decodeBare width imm8 (.dec3 arg)
  | 0xB4 => decodeBare width imm8 (.dec4 arg)
  | 0xB5 => decodeBare width imm8 (.dec5 arg)
  | _ => .error .unknownOpcode

/-- Decode a command; an illegal command word is rejected with the reason (rule R105). -/
def decode (c : Command) : Except DecodeError Instr :=
  if zeroField c.cw ≠ 0 then .error .zeroFieldSet
  else decodeFields (opcField c.cw) (widthField c.cw) (imm8Field c.cw) c.arg

/-- The opcode of a command (rule R104). -/
def opcOf : Instr → Byte
  | .nop _ => 0x00
  | .obclr _ => 0x01
  | .obpoke _ _ => 0x02
  | .rcatt _ => 0x03
  | .rcslice _ => 0x04
  | .rcunsl _ => 0x05
  | .vset _ _ => 0x06
  | .bitw32 _ => 0x10
  | .bitw64 _ => 0x11
  | .zze32 _ => 0x12
  | .zze64 _ => 0x13
  | .zzd32 _ => 0x14
  | .zzd64 _ => 0x15
  | .wfix32 _ => 0x20
  | .wfix64 _ => 0x21
  | .wvar32 _ => 0x22
  | .wvar64 _ => 0x23
  | .wzz32 _ => 0x24
  | .wzz64 _ => 0x25
  | .wpack32 _ _ _ => 0x26
  | .wpack64 _ _ _ => 0x27
  | .wpbool _ => 0x28
  | .rfix32 _ => 0x30
  | .rfix64 _ => 0x31
  | .rvar32 _ => 0x32
  | .rvar64 _ => 0x33
  | .rzz32 _ => 0x34
  | .rzz64 _ => 0x35
  | .rpack32 _ _ _ => 0x36
  | .rpack64 _ _ _ => 0x37
  | .rpbool _ => 0x38
  | .enc0 _ => 0x40
  | .enc1 _ => 0x41
  | .enc2 _ => 0x42
  | .enc3 _ => 0x43
  | .enc4 _ => 0x44
  | .enc5 _ => 0x45
  | .fin0 _ => 0x50
  | .fin1 _ => 0x51
  | .fin2 _ => 0x52
  | .fin3 _ => 0x53
  | .fin4 _ => 0x54
  | .fin5 _ => 0x55
  | .rst0 _ => 0x60
  | .rst1 _ _ => 0x61
  | .rst2 _ => 0x62
  | .rst3 _ => 0x63
  | .rst4 _ => 0x64
  | .rst5 _ => 0x65
  | .size0 _ => 0x70
  | .size1 _ => 0x71
  | .size2 _ => 0x72
  | .size3 _ => 0x73
  | .size4 _ => 0x74
  | .size5 _ => 0x75
  | .est0 _ => 0x80
  | .est1 _ => 0x81
  | .est2 _ => 0x82
  | .est3 _ => 0x83
  | .est4 _ => 0x84
  | .est5 _ => 0x85
  | .wto0 _ => 0x90
  | .wto1 _ => 0x91
  | .wto2 _ => 0x92
  | .wto3 _ => 0x93
  | .wto4 _ => 0x94
  | .wto5 _ => 0x95
  | .dinit0 _ => 0xA0
  | .dinit1 _ _ => 0xA1
  | .dinit3 _ => 0xA3
  | .dinit4 _ => 0xA4
  | .dinit5 _ => 0xA5
  | .dec0 _ => 0xB0
  | .dec1 _ => 0xB1
  | .dec3 _ => 0xB3
  | .dec4 _ => 0xB4
  | .dec5 _ => 0xB5

/-- The `WIDTH` field of a command: its width operand, or 0 (rule R102). -/
def widthOf : Instr → Byte
  | .nop _ => 0
  | .obclr _ => 0
  | .obpoke _ _ => 0
  | .rcatt _ => 0
  | .rcslice _ => 0
  | .rcunsl _ => 0
  | .vset _ _ => 0
  | .bitw32 _ => 0
  | .bitw64 _ => 0
  | .zze32 _ => 0
  | .zze64 _ => 0
  | .zzd32 _ => 0
  | .zzd64 _ => 0
  | .wfix32 _ => 0
  | .wfix64 _ => 0
  | .wvar32 _ => 0
  | .wvar64 _ => 0
  | .wzz32 _ => 0
  | .wzz64 _ => 0
  | .wpack32 width _ _ => width
  | .wpack64 width _ _ => width
  | .wpbool _ => 0
  | .rfix32 _ => 0
  | .rfix64 _ => 0
  | .rvar32 _ => 0
  | .rvar64 _ => 0
  | .rzz32 _ => 0
  | .rzz64 _ => 0
  | .rpack32 width _ _ => width
  | .rpack64 width _ _ => width
  | .rpbool _ => 0
  | .enc0 _ => 0
  | .enc1 _ => 0
  | .enc2 _ => 0
  | .enc3 _ => 0
  | .enc4 _ => 0
  | .enc5 _ => 0
  | .fin0 _ => 0
  | .fin1 _ => 0
  | .fin2 _ => 0
  | .fin3 _ => 0
  | .fin4 _ => 0
  | .fin5 _ => 0
  | .rst0 _ => 0
  | .rst1 width _ => width
  | .rst2 _ => 0
  | .rst3 _ => 0
  | .rst4 _ => 0
  | .rst5 _ => 0
  | .size0 _ => 0
  | .size1 _ => 0
  | .size2 _ => 0
  | .size3 _ => 0
  | .size4 _ => 0
  | .size5 _ => 0
  | .est0 _ => 0
  | .est1 _ => 0
  | .est2 _ => 0
  | .est3 _ => 0
  | .est4 _ => 0
  | .est5 _ => 0
  | .wto0 _ => 0
  | .wto1 _ => 0
  | .wto2 _ => 0
  | .wto3 _ => 0
  | .wto4 _ => 0
  | .wto5 _ => 0
  | .dinit0 _ => 0
  | .dinit1 width _ => width
  | .dinit3 _ => 0
  | .dinit4 _ => 0
  | .dinit5 _ => 0
  | .dec0 _ => 0
  | .dec1 _ => 0
  | .dec3 _ => 0
  | .dec4 _ => 0
  | .dec5 _ => 0

/-- The `IMM8` field of a command: its count, lane or byte operand, or 0 (rule R102). -/
def imm8Of : Instr → Byte
  | .nop _ => 0
  | .obclr _ => 0
  | .obpoke byte _ => byte
  | .rcatt _ => 0
  | .rcslice _ => 0
  | .rcunsl _ => 0
  | .vset lane _ => lane
  | .bitw32 _ => 0
  | .bitw64 _ => 0
  | .zze32 _ => 0
  | .zze64 _ => 0
  | .zzd32 _ => 0
  | .zzd64 _ => 0
  | .wfix32 _ => 0
  | .wfix64 _ => 0
  | .wvar32 _ => 0
  | .wvar64 _ => 0
  | .wzz32 _ => 0
  | .wzz64 _ => 0
  | .wpack32 _ count _ => count
  | .wpack64 _ count _ => count
  | .wpbool _ => 0
  | .rfix32 _ => 0
  | .rfix64 _ => 0
  | .rvar32 _ => 0
  | .rvar64 _ => 0
  | .rzz32 _ => 0
  | .rzz64 _ => 0
  | .rpack32 _ count _ => count
  | .rpack64 _ count _ => count
  | .rpbool _ => 0
  | .enc0 _ => 0
  | .enc1 _ => 0
  | .enc2 _ => 0
  | .enc3 _ => 0
  | .enc4 _ => 0
  | .enc5 _ => 0
  | .fin0 _ => 0
  | .fin1 _ => 0
  | .fin2 _ => 0
  | .fin3 _ => 0
  | .fin4 _ => 0
  | .fin5 _ => 0
  | .rst0 _ => 0
  | .rst1 _ _ => 0
  | .rst2 _ => 0
  | .rst3 _ => 0
  | .rst4 _ => 0
  | .rst5 _ => 0
  | .size0 _ => 0
  | .size1 _ => 0
  | .size2 _ => 0
  | .size3 _ => 0
  | .size4 _ => 0
  | .size5 _ => 0
  | .est0 _ => 0
  | .est1 _ => 0
  | .est2 _ => 0
  | .est3 _ => 0
  | .est4 _ => 0
  | .est5 _ => 0
  | .wto0 _ => 0
  | .wto1 _ => 0
  | .wto2 _ => 0
  | .wto3 _ => 0
  | .wto4 _ => 0
  | .wto5 _ => 0
  | .dinit0 _ => 0
  | .dinit1 _ _ => 0
  | .dinit3 _ => 0
  | .dinit4 _ => 0
  | .dinit5 _ => 0
  | .dec0 _ => 0
  | .dec1 _ => 0
  | .dec3 _ => 0
  | .dec4 _ => 0
  | .dec5 _ => 0

/-- The operand `ARG` that arrives with a command (rule R100). -/
def argOf : Instr → DWord
  | .nop arg => arg
  | .obclr arg => arg
  | .obpoke _ arg => arg
  | .rcatt arg => arg
  | .rcslice arg => arg
  | .rcunsl arg => arg
  | .vset _ arg => arg
  | .bitw32 arg => arg
  | .bitw64 arg => arg
  | .zze32 arg => arg
  | .zze64 arg => arg
  | .zzd32 arg => arg
  | .zzd64 arg => arg
  | .wfix32 arg => arg
  | .wfix64 arg => arg
  | .wvar32 arg => arg
  | .wvar64 arg => arg
  | .wzz32 arg => arg
  | .wzz64 arg => arg
  | .wpack32 _ _ arg => arg
  | .wpack64 _ _ arg => arg
  | .wpbool arg => arg
  | .rfix32 arg => arg
  | .rfix64 arg => arg
  | .rvar32 arg => arg
  | .rvar64 arg => arg
  | .rzz32 arg => arg
  | .rzz64 arg => arg
  | .rpack32 _ _ arg => arg
  | .rpack64 _ _ arg => arg
  | .rpbool arg => arg
  | .enc0 arg => arg
  | .enc1 arg => arg
  | .enc2 arg => arg
  | .enc3 arg => arg
  | .enc4 arg => arg
  | .enc5 arg => arg
  | .fin0 arg => arg
  | .fin1 arg => arg
  | .fin2 arg => arg
  | .fin3 arg => arg
  | .fin4 arg => arg
  | .fin5 arg => arg
  | .rst0 arg => arg
  | .rst1 _ arg => arg
  | .rst2 arg => arg
  | .rst3 arg => arg
  | .rst4 arg => arg
  | .rst5 arg => arg
  | .size0 arg => arg
  | .size1 arg => arg
  | .size2 arg => arg
  | .size3 arg => arg
  | .size4 arg => arg
  | .size5 arg => arg
  | .est0 arg => arg
  | .est1 arg => arg
  | .est2 arg => arg
  | .est3 arg => arg
  | .est4 arg => arg
  | .est5 arg => arg
  | .wto0 arg => arg
  | .wto1 arg => arg
  | .wto2 arg => arg
  | .wto3 arg => arg
  | .wto4 arg => arg
  | .wto5 arg => arg
  | .dinit0 arg => arg
  | .dinit1 _ arg => arg
  | .dinit3 arg => arg
  | .dinit4 arg => arg
  | .dinit5 arg => arg
  | .dec0 arg => arg
  | .dec1 arg => arg
  | .dec3 arg => arg
  | .dec4 arg => arg
  | .dec5 arg => arg

/-- The command word of rule R108: `(OPC << 24) | (WIDTH << 16) | (IMM8 << 8)`. -/
def mkWord (opc width imm8 : Byte) : Word := opc ++ width ++ imm8 ++ (0 : Byte)

/-- The command word of a command (rules R100, R108). -/
def encodeWord (i : Instr) : Word := mkWord (opcOf i) (widthOf i) (imm8Of i)

/-- The command as the host presents it (rule R100). -/
def encode (i : Instr) : Command := ⟨encodeWord i, argOf i⟩

/-- The low `nbits` bits of `w` as a command: the command word in bits 31 to 0, the operand in bits 95 to 32.
DESIGN CHOICE (log entry 15); safe. -/
def commandOfBits (nbits w : Nat) : Command :=
  ⟨BitVec.ofNat 32 (w % 2 ^ nbits), BitVec.ofNat 64 (w % 2 ^ nbits / 2 ^ 32)⟩

/-- The instruction the decoder reads from the bits of an opcode-table row; the operand bits the table does not
give are 0. -/
def decodeTableWord (nbits w : Nat) : Option Instr :=
  match decode (commandOfBits nbits w) with
  | .ok i => some i
  | .error _ => none

end Sys2Proof
end

