-- ==== Sys2Proof/Machine/State.lean ====
section
/-! DEFINITION. The architectural state of the VIC block (rules R20 to R39), the reasons a step can stop, and the
state after reset. Write-side buffers and arrays are held as the lists of their defined elements, so that a length
register is the length of its list (spec/93_implementation_defined.md section 2 allows it; log entry 3). -/

namespace Sys2Proof.Machine

/-- Why a step stops without a next state. No command stops the machine: a fault of the block is a next state
(rule R346). -/
inductive Fault where
  /-- Raised by the step when the host writes IB at an offset at or beyond `IBCAP`, an address the spec says does
  not exist (rules R26, R60). Safe: the spec gives such a write no effect. -/
  | ibAddressAbsent (offset : Nat)
  deriving DecidableEq, Repr

/-- Why a step has no meaning for what it is given. -/
inductive Refusal where
  /-- Raised by `exec` for an instruction that has no meaning yet. Safe. No instruction of this model does. -/
  | notModelled (mnemonic : String)
  deriving DecidableEq, Repr

/-- The fault causes of rule R341. -/
inductive FaultCode where
  /-- the last permitted byte of a varint still has its continuation bit set (rule R352) -/
  | varintUnterminated
  /-- a read needs a byte at or beyond the cursor's limit (rule R353) -/
  | readPastEnd
  /-- the last permitted byte of a varint has data bits beyond the type's width (rule R354) -/
  | varintExcess
  /-- a bit width read from a stream is larger than the decoder can unpack (rule R355) -/
  | badWidth
  /-- the fields of a delta block header are inconsistent (rule R356) -/
  | badBlockHeader
  /-- `ENC.u` with `Eu.FIN = 1` (rule R357) -/
  | encodeAfterFinish
  /-- `DEC.u` with `Du.ACT = 0` (rule R358) -/
  | decoderNotInitialised
  /-- `OBPOKE` at an offset not yet written; `RCATT` beyond `IBCAP` (rule R359) -/
  | badRange
  /-- an append would pass a buffer's capacity, or a run count its limit (rule R360) -/
  | capacity
  /-- the command word is not a legal command (rule R361) -/
  | illegalCommand
  deriving DecidableEq, Repr

/-- A byte memory as address and byte pairs, addresses rising, no entry equal to what an unlisted address reads
as. Used for IB, which the host writes at any offset (rule R26). -/
structure Memory where
  cells : List Host.Cell
  deriving DecidableEq, Repr

/-- What the host can do between commands (rule R40). The queue of actions still to come is the model's own field:
the block sees them one at a time, oldest first (rules R20, R75). -/
inductive HostAction where
  /-- present a command (rule R100) -/
  | command (c : Command)
  /-- write bytes of IB from an offset on (rules R40, R74) -/
  | writeIB (offset : Nat) (bytes : Bytes)
  /-- assert the hardware reset input (rule R380) -/
  | reset
  deriving DecidableEq, Repr

/-- A read cursor over IB: position and limit (rules R9, R26, R33). -/
structure Cursor where
  pos : Word := 0
  lim : Word := 0
  deriving DecidableEq, Repr

/-- Encoder unit 0, `BOOL` (rules R27, R28). -/
structure BoolEnc where
  /-- `E0.ST[0 .. SLEN−1]`; `E0.SLEN` is its length -/
  st : Bytes := []
  /-- `E0.FIN` -/
  fin : Bool := false
  /-- `E0.BACC` -/
  bacc : Byte := 0
  /-- `E0.BCNT`, 0..7 -/
  bcnt : Nat := 0
  deriving DecidableEq, Repr

/-- The common fields of a hybrid encoder unit and its engine (rules R27, R29, R30). It is all of unit 1 and a
part of units 2 and 3. -/
structure HybridEnc where
  /-- `Eu.ST[0 .. SLEN−1]`; `Eu.SLEN` is its length -/
  st : Bytes := []
  /-- `Eu.FIN` -/
  fin : Bool := false
  /-- `WID`, 0..32 -/
  wid : Nat := 0
  /-- `RV`, the value of the RLE candidate -/
  rv : Word := 0
  /-- `RN`, its repeat count, 0..2^31−1 -/
  rn : Nat := 0
  /-- `OCT[0 .. OPOS−1]`, the octuplet being filled; `OPOS` is its length, 0..7 -/
  oct : List Word := []
  /-- `PR[0 .. PLEN−1]`, the packed octuplets of the pending run; `PLEN` is its length -/
  pr : Bytes := []
  /-- `NOCT`, octuplets in the pending bit-packed run, 0..2^31−1 -/
  noct : Nat := 0
  deriving DecidableEq, Repr

/-- Encoder units 2, `RLES`, and 3, `RLEP` (rule R31). -/
structure SelfEnc where
  /-- the common fields and the engine -/
  hyb : HybridEnc := {}
  /-- `Eu.RAW[0 .. RAWN−1]`; `Eu.RAWN` is its length -/
  raw : List Word := []
  /-- `Eu.WMAX`, 0..32 -/
  wmax : Nat := 0
  deriving DecidableEq, Repr

/-- Encoder units 4, `D32` (`w = 32`), and 5, `D64` (`w = 64`) (rules R27, R32). -/
structure DeltaEnc (w : Nat) where
  /-- `Eu.ST[0 .. SLEN−1]`; `Eu.SLEN` is its length -/
  st : Bytes := []
  /-- `Eu.FIN` -/
  fin : Bool := false
  /-- `Eu.VB[0 .. CNT−1]`, sW patterns; `Eu.CNT` is its length, 0..129 -/
  vb : List (BitVec w) := []
  deriving DecidableEq, Repr

/-- Decoder unit 0, `BOOL` (rules R33, R34). -/
structure BoolDec where
  /-- `D0.ACT` -/
  act : Bool := false
  /-- `D0.POS`, `D0.LIM` -/
  csr : Cursor := {}
  /-- `D0.BYTE` -/
  byte : Byte := 0
  /-- `D0.BREM`, 0..8 -/
  brem : Nat := 0
  deriving DecidableEq, Repr

/-- `Du.MODE` of a hybrid decoder (rule R35). -/
inductive RunMode where
  /-- 0: no run read yet -/
  | idle
  /-- 1: inside an RLE run -/
  | rle
  /-- 2: inside a bit-packed run -/
  | packed
  deriving DecidableEq, Repr

/-- Decoder units 1, `RLE`, and 3, `RLEP` (rules R33, R35). -/
structure HybridDec where
  /-- `Du.ACT` -/
  act : Bool := false
  /-- `Du.POS`, `Du.LIM` -/
  csr : Cursor := {}
  /-- `Du.WID`, 0..32 -/
  wid : Nat := 0
  /-- `Du.MODE` -/
  mode : RunMode := .idle
  /-- `Du.REM`: repeats not yet returned, or octuplets not yet loaded -/
  rem : Nat := 0
  /-- `Du.VAL`, the run's value -/
  val : Word := 0
  /-- `Du.OCT[0..7]`, the loaded octuplet; empty until one is loaded -/
  oct : List Word := []
  /-- `Du.OPOS`, 0..8: next element of `OCT` to return -/
  opos : Nat := 8
  deriving DecidableEq, Repr

/-- Decoder units 4, `D32` (`w = 32`), and 5, `D64` (`w = 64`) (rules R33, R36). -/
structure DeltaDec (w : Nat) where
  /-- `Du.ACT` -/
  act : Bool := false
  /-- `Du.POS`, `Du.LIM` -/
  csr : Cursor := {}
  /-- `Du.REMV`, 0..129: values of the block not yet returned -/
  remv : Nat := 0
  /-- `Du.FIRST`: the block's first value has been read and not yet returned -/
  first : Bool := false
  /-- `Du.CUR`: the last value returned, or the first value when `FIRST = 1` -/
  cur : BitVec w := 0
  /-- `Du.MIND`, the block's min_delta as read (an s64 pattern) -/
  mind : DWord := 0
  /-- `Du.MSZ`, the mini-block size, 0 when the block has none -/
  msz : Nat := 0
  /-- `Du.WIDTHS[0 .. mini_count−1]`, the bit widths of the block's mini-blocks -/
  widths : List Byte := []
  /-- `Du.MB[0 .. MBN−1]`, the loaded relative deltas; `Du.MBN` is its length, 0..128 -/
  mb : List DWord := []
  /-- `Du.MBPOS`, 0..128: next element of `MB` to use -/
  mbpos : Nat := 0
  /-- `Du.MBIDX`, 0..16: index of the next mini-block to load -/
  mbidx : Nat := 0
  deriving DecidableEq, Repr

/-- Everything the spec gives the block, and two fields of the model's own: `params` (the capacities of rule R6,
taken as data) and `port` (what the host does next, rule R40). -/
structure State where
  /-- the capacities (rule R6); the model's own field, no step changes it -/
  params : Config.Params
  /-- the host's actions still to come, oldest first (rules R40, R75); the model's own field. DESIGN CHOICE (log
  entry 5); safe -/
  port : List HostAction
  /-- `FAULT` (rule R23) -/
  fault : Bool
  /-- `FCODE` (rules R24, R341) -/
  fcode : Byte
  /-- `FCMD` (rule R24) -/
  fcmd : Word
  /-- `FARG` (rule R24) -/
  farg : DWord
  /-- `R`, the result register (rule R21) -/
  r : DWord
  /-- `V[0..127]`, the vector file (rule R21) -/
  v : Vector DWord 128
  /-- `OB[0 .. OBLEN−1]`; `OBLEN` is its length (rule R25) -/
  ob : Bytes
  /-- `IB` (rule R26) -/
  ib : Memory
  /-- the main cursor `RCPOS`, `RCLIM` (rule R26) -/
  rc : Cursor
  /-- `RCEND` (rule R26) -/
  rcend : Word
  /-- encoder unit 0 (rule R28) -/
  e0 : BoolEnc
  /-- encoder unit 1 (rule R30) -/
  e1 : HybridEnc
  /-- encoder unit 2 (rule R31) -/
  e2 : SelfEnc
  /-- encoder unit 3 (rule R31) -/
  e3 : SelfEnc
  /-- encoder unit 4 (rule R32) -/
  e4 : DeltaEnc 32
  /-- encoder unit 5 (rule R32) -/
  e5 : DeltaEnc 64
  /-- decoder unit 0 (rule R34) -/
  d0 : BoolDec
  /-- decoder unit 1 (rule R35) -/
  d1 : HybridDec
  /-- decoder unit 3 (rule R35) -/
  d3 : HybridDec
  /-- decoder unit 4 (rule R36) -/
  d4 : DeltaDec 32
  /-- decoder unit 5 (rule R36) -/
  d5 : DeltaDec 64
  deriving DecidableEq, Repr

/-- The state after hardware reset (rules R39, R381) for given capacities, with no host action pending. `R`, `V`
and the contents of every memory are unspecified there; the model names the values (log entries 1 and 2). -/
def State.resetWith (p : Config.Params) : State where
  params := p
  port := []
  fault := false
  fcode := 0
  fcmd := 0
  farg := 0
  r := Config.resetResult
  v := Vector.replicate 128 Config.resetLane
  ob := []
  ib := ⟨[]⟩
  rc := {}
  rcend := 0
  e0 := {}
  e1 := {}
  e2 := {}
  e3 := {}
  e4 := {}
  e5 := {}
  d0 := {}
  d1 := {}
  d3 := {}
  d4 := {}
  d5 := {}

/-- The block right after hardware reset, with the default capacities of rule R6. -/
def State.reset : State := State.resetWith Config.defaultParams

end Sys2Proof.Machine
end

