-- ==== Sys2Proof/Machine/Codec.lean ====
section
/-! DEFINITION. The pure functions of spec/00_scope.md section 5: bit width, zigzag, varint, packing of integers
and booleans, and fixed-width little-endian byte strings. -/

namespace Sys2Proof.Machine

/-- `bitWidth` (rule R12): position of the highest set bit plus 1, 0 for value 0. -/
def bitWidth (x : Nat) : Nat :=
  if x = 0 then 0 else Nat.log2 x + 1

/-- `ceil(n / 8)`: whole bytes that hold `n` bits. -/
def bytesFor (n : Nat) : Nat := (n + 7) / 8

/-- `zz_N` (rule R13): the left shift wraps, the right shift is arithmetic. -/
def zigzag {n : Nat} (v : BitVec n) : BitVec n := (v <<< 1) ^^^ v.sshiftRight (n - 1)

/-- `unzz_N` (rule R14). -/
def unzigzag {n : Nat} (u : BitVec n) : BitVec n := (u >>> 1) ^^^ (0 - (u &&& 1))

/-- `bytes_le(x, n)` (rule R8): the low `8n` bits of `x`, least significant byte first. -/
def bytesLE (x : Nat) : Nat → Bytes
  | 0 => []
  | n + 1 => BitVec.ofNat 8 x :: bytesLE (x / 256) n

/-- `le(b)` (rule R8). -/
def leVal : Bytes → Nat
  | [] => 0
  | b :: bs => b.toNat + 256 * leVal bs

/-- The loop of `varint` (rule R15), run at most `fuel` times. -/
def varintLoop : Nat → Nat → Bytes
  | 0, _ => []
  | fuel + 1, u =>
    if u / 128 ≠ 0 then BitVec.ofNat 8 (u % 128 + 128) :: varintLoop fuel (u / 128)
    else [BitVec.ofNat 8 (u % 128)]

/-- `varint(u)` (rule R15). The loop runs once per group of 7 bits, so `bitWidth u + 1` turns are enough. -/
def varint (u : Nat) : Bytes := varintLoop (bitWidth u + 1) u

/-- `varlen(u)` (rule R15). -/
def varlen (u : Nat) : Nat := max 1 ((bitWidth u + 6) / 7)

/-- The sum of rule R16: value `i`, cut to its low `w` bits, at stream bit `i * w`. -/
def packSum (w : Nat) : List Nat → Nat
  | [] => 0
  | v :: vs => v % 2 ^ w + 2 ^ w * packSum w vs

/-- `pack(vals, w)` (rule R16). -/
def pack (vals : List Nat) (w : Nat) : Bytes :=
  bytesLE (packSum w vals) (bytesFor (vals.length * w))

/-- The `n` values of width `w` in the bit stream `x`, lowest bits first (rule R17). -/
def unpackSum (w : Nat) : Nat → Nat → List Nat
  | 0, _ => []
  | n + 1, x => x % 2 ^ w :: unpackSum w n (x / 2 ^ w)

/-- `unpack(b, w, n)` (rule R17). -/
def unpack (b : Bytes) (w n : Nat) : List Nat := unpackSum w n (leVal b)

/-- `pbool(bits)` (rule R18): the first boolean in the top bit. -/
def pbool (bits : List Bool) : Byte :=
  bits.foldl (fun acc b => (acc <<< 1) ||| (BitVec.ofBool b).setWidth 8) 0

/-- `unpbool(y)` (rule R18): `bits[i] = y[7−i]`. -/
def unpbool (y : Byte) : List Bool := (List.range 8).map fun i => y.getLsbD (7 - i)

/-- Boolean `i` in bit `i` (rule R101): the eight booleans of a byte. -/
def boolsOfByte (x : Byte) : List Bool := (List.range 8).map fun i => x.getLsbD i

/-- Boolean `i` in bit `i` (rule R101): a byte of eight booleans. -/
def byteOfBools : List Bool → Byte
  | [] => 0
  | b :: bs => (byteOfBools bs <<< 1) ||| (BitVec.ofBool b).setWidth 8

/-- The largest element of a list of numbers, 0 when there is none. -/
def maxOf (xs : List Nat) : Nat := xs.foldl max 0

end Sys2Proof.Machine
end

