-- ==== Sys2Proof/Machine/Operands.lean ====
section
/-! DEFINITION. Operand assembly and result placement (rule R101). -/

namespace Sys2Proof.Machine

/-- A 32-bit operand: `ARG[31:0]`, read as a u32 or an s32 by the command (rule R101). -/
def argWord (arg : DWord) : Word := arg.setWidth 32

/-- A boolean operand: `ARG[0]` (rule R101). -/
def argBool (arg : DWord) : Bool := arg.getLsbD 0

/-- Eight boolean operands: `ARG[7:0]`, boolean `i` in bit `i` (rule R101). -/
def argBools (arg : DWord) : List Bool := boolsOfByte (arg.setWidth 8)

/-- The vector operand `V[0 .. n−1]` (rule R101). -/
def lanes (v : Vector DWord 128) (n : Nat) : List DWord := v.toList.take n

/-- Vector result: lanes from `i` on take the values in order, the other lanes keep theirs (rule R187). -/
def setLanes (v : Vector DWord 128) : Nat → List DWord → Vector DWord 128
  | _, [] => v
  | i, x :: xs => setLanes (v.setIfInBounds i x) (i + 1) xs

/-- An unsigned result zero-extended to 64 bits (rule R101). -/
def zext64 {n : Nat} (x : BitVec n) : DWord := x.setWidth 64

/-- A signed result sign-extended to 64 bits (rule R101). -/
def sext64 {n : Nat} (x : BitVec n) : DWord := x.signExtend 64

/-- An exact non-negative result, such as a length or a bit width, placed in 64 bits (rule R101). -/
def natResult (x : Nat) : DWord := BitVec.ofNat 64 x

/-- A boolean result: 0 or 1 (rule R101). -/
def boolResult (b : Bool) : DWord := (BitVec.ofBool b).setWidth 64

/-- Eight boolean results: boolean `i` in bit `i`, the rest 0 (rule R101). -/
def boolsResult (bits : List Bool) : DWord := (byteOfBools bits).setWidth 64

end Sys2Proof.Machine
end

