-- ==== Sys2Proof/Machine/Flags.lean ====
section
/-! DEFINITION. Every flag of the block (rule R23), the `STATUS` register they make up (rule R24) and the fault
codes of `FCODE` (rule R341). The block has no arithmetic condition codes. -/

namespace Sys2Proof.Machine

/-- The number `FCODE` holds for a cause (rule R341). -/
def faultNumber : FaultCode → Byte
  | .varintUnterminated => 0x01
  | .readPastEnd => 0x02
  | .varintExcess => 0x03
  | .badWidth => 0x04
  | .badBlockHeader => 0x05
  | .encodeAfterFinish => 0x10
  | .decoderNotInitialised => 0x11
  | .badRange => 0x12
  | .capacity => 0x20
  | .illegalCommand => 0x30

/-- `Eu.FIN` of encoder unit `u`; there is no unit above 5 (rule R23). -/
def finFlag (s : State) (u : Nat) : Bool :=
  match u with
  | 0 => s.e0.fin
  | 1 => s.e1.fin
  | 2 => s.e2.hyb.fin
  | 3 => s.e3.hyb.fin
  | 4 => s.e4.fin
  | 5 => s.e5.fin
  | _ => false

/-- `Du.ACT` of decoder unit `u`; there is no unit 2 and none above 5 (rule R23). -/
def actFlag (s : State) (u : Nat) : Bool :=
  match u with
  | 0 => s.d0.act
  | 1 => s.d1.act
  | 3 => s.d3.act
  | 4 => s.d4.act
  | 5 => s.d5.act
  | _ => false

/-- A flag at a bit of a 32-bit register. -/
def flagBit (b : Bool) (k : Nat) : Word := (BitVec.ofBool b).setWidth 32 <<< k

/-- `STATUS` (rule R24): `FAULT` in bit 0, `Eu.FIN` in bit 8+u, `Du.ACT` in bit 16+u, the rest 0. -/
def statusWord (s : State) : Word :=
  flagBit s.fault 0 |||
    (flagBit (finFlag s 0) 8 ||| flagBit (finFlag s 1) 9 ||| flagBit (finFlag s 2) 10 ||| flagBit (finFlag s 3) 11 |||
      flagBit (finFlag s 4) 12 ||| flagBit (finFlag s 5) 13) |||
    (flagBit (actFlag s 0) 16 ||| flagBit (actFlag s 1) 17 ||| flagBit (actFlag s 3) 19 ||| flagBit (actFlag s 4) 20 |||
      flagBit (actFlag s 5) 21)

end Sys2Proof.Machine
end

