-- ==== Sys2Proof/Machine/Ops.lean ====
section
/-! DEFINITION. The named operations over memory, buffers, cursors and registers (rule R9), fault entry and the
way out of it (rules R346, R348), and the prelude every command runs first (rule R345). -/

namespace Sys2Proof.Machine

/-! ### IB -/

/-- One byte of a memory: the listed byte, or what an unlisted address reads as. -/
def lookupByte (a : Nat) : List Host.Cell → Byte
  | [] => Config.ibUnwritten
  | (k, b) :: t => if k = a then b else lookupByte a t

/-- One byte of IB (rule R9: `MemRead`, one byte). -/
def Memory.read (m : Memory) (a : Nat) : Byte := lookupByte a m.cells

/-- `MemRead(IB, a, n)` (rule R9). -/
def Memory.readBytes (m : Memory) (a : Nat) : Nat → Bytes
  | 0 => []
  | n + 1 => m.read a :: m.readBytes (a + 1) n

/-- Put one byte in its place among cells with rising addresses; a byte equal to what an unlisted address reads as
leaves no cell. -/
def insertByte (a : Nat) (b : Byte) : List Host.Cell → List Host.Cell
  | [] => if b = Config.ibUnwritten then [] else [(a, b)]
  | (k, x) :: t =>
    if a < k then (if b = Config.ibUnwritten then (k, x) :: t else (a, b) :: (k, x) :: t)
    else if a = k then (if b = Config.ibUnwritten then t else (a, b) :: t)
    else (k, x) :: insertByte a b t

/-- Write one byte of IB. -/
def Memory.write (m : Memory) (a : Nat) (b : Byte) : Memory := ⟨insertByte a b m.cells⟩

/-- `MemWrite(IB, a, |b|, b)` (rule R9). -/
def Memory.writeBytes (m : Memory) (a : Nat) : Bytes → Memory
  | [] => m
  | b :: bs => (m.write a b).writeBytes (a + 1) bs

/-- Cells above address `lo` only, addresses strictly rising, none equal to what an unlisted address reads as. -/
def cellsFrom (lo : Nat) : List Host.Cell → Bool
  | [] => true
  | (k, b) :: t => decide (lo ≤ k) && decide (b ≠ Config.ibUnwritten) && cellsFrom (k + 1) t

/-- The canonical form of a memory. -/
def Memory.wf (m : Memory) : Bool := cellsFrom 0 m.cells

/-! ### Write-side buffers and read cursors (rule R9) -/

/-- `Append(B, b)` for a buffer of capacity `cap`: `CAPACITY` when it does not fit, else the bytes go to its end
(rules R9, R71). -/
def append (cap : Nat) (buf b : Bytes) : Except FaultCode Bytes :=
  if cap < buf.length + b.length then .error .capacity else .ok (buf ++ b)

/-- `Take(c, n)`: `READ_PAST_END` past the limit, else the next `n` bytes of IB and the cursor moved over them
(rules R9, R71). The sum is exact. -/
def take (ib : Memory) (c : Cursor) (n : Nat) : Except FaultCode (Bytes × Cursor) :=
  if c.lim.toNat < c.pos.toNat + n then .error .readPastEnd
  else .ok (ib.readBytes c.pos.toNat n, { c with pos := BitVec.ofNat 32 (c.pos.toNat + n) })

/-- `Take(c, 1)[0]` (rule R9). -/
def takeByte (ib : Memory) (c : Cursor) : Except FaultCode (Byte × Cursor) := do
  let (b, c') ← take ib c 1
  .ok (b.headD 0, c')

/-- `MAXB(N) = ceil(N / 7)`, the most bytes a varint of an N-bit value may take (rule R19). -/
def maxVarintBytes (n : Nat) : Nat := (n + 6) / 7

/-- The loop of `readVarint_N` (rule R19) at byte number `k`, with `left` more bytes permitted, this one included;
`res` is the value of the bytes before. -/
def readVarintLoop (n : Nat) (ib : Memory) : Nat → Nat → Nat → Cursor → Except FaultCode (Nat × Cursor)
  | 0, _, res, c => .ok (res, c)
  | left + 1, k, res, c => do
    let (y, c') ← takeByte ib c
    if left = 0 ∧ 128 ≤ y.toNat then .error .varintUnterminated
    else if left = 0 ∧ (y.toNat % 128) >>> (n - 7 * k) ≠ 0 then .error .varintExcess
    else
      let res' := res ||| ((y.toNat % 128) <<< (7 * k))
      if y.toNat < 128 then .ok (res', c') else readVarintLoop n ib left (k + 1) res' c'

/-- `readVarint_N(c)` (rule R19). -/
def readVarint (n : Nat) (ib : Memory) (c : Cursor) : Except FaultCode (BitVec n × Cursor) := do
  let (x, c') ← readVarintLoop n ib (maxVarintBytes n) 0 0 c
  .ok (BitVec.ofNat n x, c')

/-! ### Named updates of the state -/

/-- `R <- x` (rule R21). -/
def State.setR (s : State) (x : DWord) : State := { s with r := x }

/-- `V <- x` (rule R21). -/
def State.setV (s : State) (x : Vector DWord 128) : State := { s with v := x }

/-- The bytes of OB, and with them `OBLEN` (rule R25). -/
def State.setOB (s : State) (x : Bytes) : State := { s with ob := x }

/-- The bytes of IB (rule R26). -/
def State.setIB (s : State) (x : Memory) : State := { s with ib := x }

/-- `RCPOS` and `RCLIM` (rule R26). -/
def State.setRC (s : State) (x : Cursor) : State := { s with rc := x }

/-- `RCEND` (rule R26). -/
def State.setRCEnd (s : State) (x : Word) : State := { s with rcend := x }

/-- Encoder unit 0. -/
def State.setE0 (s : State) (x : BoolEnc) : State := { s with e0 := x }

/-- Encoder unit 1. -/
def State.setE1 (s : State) (x : HybridEnc) : State := { s with e1 := x }

/-- Encoder unit 2. -/
def State.setE2 (s : State) (x : SelfEnc) : State := { s with e2 := x }

/-- Encoder unit 3. -/
def State.setE3 (s : State) (x : SelfEnc) : State := { s with e3 := x }

/-- Encoder unit 4. -/
def State.setE4 (s : State) (x : DeltaEnc 32) : State := { s with e4 := x }

/-- Encoder unit 5. -/
def State.setE5 (s : State) (x : DeltaEnc 64) : State := { s with e5 := x }

/-- Decoder unit 0. -/
def State.setD0 (s : State) (x : BoolDec) : State := { s with d0 := x }

/-- Decoder unit 1. -/
def State.setD1 (s : State) (x : HybridDec) : State := { s with d1 := x }

/-- Decoder unit 3. -/
def State.setD3 (s : State) (x : HybridDec) : State := { s with d3 := x }

/-- Decoder unit 4. -/
def State.setD4 (s : State) (x : DeltaDec 32) : State := { s with d4 := x }

/-- Decoder unit 5. -/
def State.setD5 (s : State) (x : DeltaDec 64) : State := { s with d5 := x }

/-- Every `Du.ACT <- 0`; the other decoder fields are left as they were (rule R134). -/
def State.detachDecoders (s : State) : State :=
  { s with
    d0 := { s.d0 with act := false }
    d1 := { s.d1 with act := false }
    d3 := { s.d3 with act := false }
    d4 := { s.d4 with act := false }
    d5 := { s.d5 with act := false } }

/-- The host actions still to come. -/
def State.setPort (s : State) (x : List HostAction) : State := { s with port := x }

/-! ### Faults: entry, and the only way out -/

/-- Fault entry (rule R346): `FAULT`, `FCODE`, `FCMD` and `FARG` record the fault; every other field keeps the
value it had before the command, since `s` is that state. The block goes on, refusing every command. DEDUCED (log entry
7); safe. -/
def enterFault (code : FaultCode) (c : Command) (s : State) : State :=
  { s with fault := true, fcode := faultNumber code, fcmd := c.cw, farg := c.arg }

/-- Hardware reset, the only event that leaves the fault state (rules R348, R380, R381). What the host does next is
not part of the block and stays. The contents rule R384 leaves unspecified take the values of `State.resetWith`:
DESIGN CHOICE (log entry 6); unsafe. -/
def hardwareReset (s : State) : State := (State.resetWith s.params).setPort s.port

/-- The prelude of rule R345 and the end of the command. A block in the fault state refuses the command, which
then changes nothing (rule R347); an illegal word raises `ILLEGAL_COMMAND`; else the command's own pseudocode
`body` runs, whose writes all take effect or, when it raises a fault, none (rule R10). -/
def command (i : Instr) (s : State) (body : Except FaultCode State) : Host.Outcome State Fault Refusal :=
  if s.fault then .next s
  else if i.wf then
    match body with
    | .ok s' => .next s'
    | .error code => .next (enterFault code (encode i) s)
  else .next (enterFault .illegalCommand (encode i) s)

/-- A command word that is no command at all (rules R105, R345, R361). -/
def illegalWord (c : Command) (s : State) : Host.Outcome State Fault Refusal :=
  if s.fault then .next s else .next (enterFault .illegalCommand c s)

/-! ### The command bodies shared by many commands -/

/-- `Append(OB, b)` (rule R160). -/
def appendOB (s : State) (b : Bytes) : Except FaultCode State := do
  let ob ← append s.params.obcap s.ob b
  .ok (s.setOB ob)

/-- `Take(RC, n)`: bytes through the main cursor (rule R180). -/
def takeRC (s : State) (n : Nat) : Except FaultCode (Bytes × State) := do
  let (b, c) ← take s.ib s.rc n
  .ok (b, s.setRC c)

/-- `readVarint_N(RC)`: a varint through the main cursor (rule R180). -/
def readVarintRC (n : Nat) (s : State) : Except FaultCode (BitVec n × State) := do
  let (x, c) ← readVarint n s.ib s.rc
  .ok (x, s.setRC c)

/-! ### The host between commands -/

/-- A host write of IB (rules R40, R74). An offset at or beyond `IBCAP` does not exist (rule R26): a
fault of the model. DESIGN CHOICE (log entry 8); safe. -/
def hostWrite (s : State) (offset : Nat) (bytes : Bytes) : Host.Outcome State Fault Refusal :=
  if bytes.length ≠ 0 ∧ s.params.ibcap < offset + bytes.length then .fault (.ibAddressAbsent (max offset s.params.ibcap))
  else .next (s.setIB (s.ib.writeBytes offset bytes))

end Sys2Proof.Machine
end

