-- ==== Sys2Proof/Machine/BoolCodec.lean ====
section
/-! DEFINITION. The boolean packed codec: encoder unit 0 and decoder unit 0 (rules R200 to R209). -/

namespace Sys2Proof.Machine

/-- The encode step of unit 0 (rule R202). -/
def boolEncode (stcap : Nat) (e : BoolEnc) (b : Bool) : Except FaultCode BoolEnc :=
  let bacc := e.bacc ||| ((BitVec.ofBool b).setWidth 8 <<< (7 - e.bcnt))
  if e.bcnt + 1 = 8 then do
    let st ← append stcap e.st [bacc]
    .ok { e with st := st, bacc := 0, bcnt := 0 }
  else .ok { e with bacc := bacc, bcnt := e.bcnt + 1 }

/-- The pseudocode of `FIN.0` (rule R203): the positions not given are already 0. -/
def boolFinish (stcap : Nat) (e : BoolEnc) : Except FaultCode BoolEnc :=
  if e.fin then .ok e
  else if 0 < e.bcnt then do
    let st ← append stcap e.st [e.bacc]
    .ok { e with st := st, bacc := 0, bcnt := 0, fin := true }
  else .ok { e with fin := true }

/-- The estimate of unit 0 (rule R206). -/
def boolEst (e : BoolEnc) : Nat := e.st.length + if 0 < e.bcnt then 1 else 0

/-- The decode step of unit 0 (rule R209): a new byte when the last one is used up, then the next boolean from the
top. -/
def boolDecode (ib : Memory) (d : BoolDec) : Except FaultCode (Bool × BoolDec) :=
  if d.brem = 0 then do
    let (y, c) ← takeByte ib d.csr
    .ok (y.getLsbD 7, { d with csr := c, byte := y, brem := 7 })
  else .ok (d.byte.getLsbD (d.brem - 1), { d with brem := d.brem - 1 })

/-- `ENC.0` (rule R202). -/
def execEnc0 (arg : DWord) (s : State) : Host.Outcome State Fault Refusal :=
  command (.enc0 arg) s
    (if s.e0.fin then .error .encodeAfterFinish
     else do
       let e ← boolEncode s.params.stcap s.e0 (argBool arg)
       .ok (s.setE0 e))

/-- `FIN.0` (rule R203). -/
def execFin0 (arg : DWord) (s : State) : Host.Outcome State Fault Refusal :=
  command (.fin0 arg) s do
    let e ← boolFinish s.params.stcap s.e0
    .ok (s.setE0 e)

/-- `RST.0` (rule R204). -/
def execRst0 (arg : DWord) (s : State) : Host.Outcome State Fault Refusal :=
  command (.rst0 arg) s (.ok (s.setE0 {}))

/-- `SIZE.0` (rule R205). -/
def execSize0 (arg : DWord) (s : State) : Host.Outcome State Fault Refusal :=
  command (.size0 arg) s (.ok (s.setR (natResult s.e0.st.length)))

/-- `EST.0` (rule R206). -/
def execEst0 (arg : DWord) (s : State) : Host.Outcome State Fault Refusal :=
  command (.est0 arg) s (.ok (s.setR (natResult (boolEst s.e0))))

/-- `WTO.0` (rule R207): finish, then append the staged bytes to OB. -/
def execWto0 (arg : DWord) (s : State) : Host.Outcome State Fault Refusal :=
  command (.wto0 arg) s do
    let e ← boolFinish s.params.stcap s.e0
    appendOB (s.setE0 e) e.st

/-- `DINIT.0` (rule R208): a copy of the main cursor; no byte is read. -/
def execDinit0 (arg : DWord) (s : State) : Host.Outcome State Fault Refusal :=
  command (.dinit0 arg) s (.ok (s.setD0 { act := true, csr := s.rc, byte := 0, brem := 0 }))

/-- `DEC.0` (rule R209). -/
def execDec0 (arg : DWord) (s : State) : Host.Outcome State Fault Refusal :=
  command (.dec0 arg) s
    (if s.d0.act then do
       let (b, d) ← boolDecode s.ib s.d0
       .ok ((s.setD0 d).setR (boolResult b))
     else .error .decoderNotInitialised)

end Sys2Proof.Machine
end

