-- ==== Sys2Proof/Machine/DeltaDecoder.lean ====
section
/-! DEFINITION. The adaptive delta block decoder: decoder units 4 and 5 (rules R320 to R327). -/

namespace Sys2Proof.Machine

/-- The largest mini-block width a decoder of value width `w` accepts: 33 for 32, 64 for 64 (rule R321). -/
def maxMiniWidth (w : Nat) : Nat := if w = 32 then 33 else 64

/-- The block a header announces, before its min_delta and widths (rule R321). -/
def startBlock {w : Nat} (d : DeltaDec w) (c : Cursor) (vc msz : Nat) (v : BitVec w) (mind : DWord) : DeltaDec w :=
  { d with csr := c, remv := vc, first := true, cur := v, mind := mind, msz := msz, mb := [], mbpos := 0, mbidx := 0 }

/-- The checks of rule R321 on the three counts of a header, in its order. -/
def headerBad (bs mc vc : Nat) : Bool :=
  if Config.blkMax < bs ∨ 16 < mc ∨ vc < 1 ∨ bs < vc - 1 then true
  else if mc = 0 then decide (vc ≠ 1)
  else decide (bs % mc ≠ 0 ∨ bs / mc = 0 ∨ bs / mc % 8 ≠ 0)

/-- `readBlockHeader(D, W)` (rule R321). -/
def readBlockHeader {w : Nat} (ib : Memory) (d : DeltaDec w) : Except FaultCode (DeltaDec w) := do
  let (bs, c) ← readVarint 32 ib d.csr
  let (mc, c) ← readVarint 32 ib c
  let (vc, c) ← readVarint 32 ib c
  let (u, c) ← readVarint w ib c
  if headerBad bs.toNat mc.toNat vc.toNat then .error .badBlockHeader
  else if mc.toNat = 0 then .ok (startBlock d c vc.toNat 0 (unzigzag u) 0)
  else do
    let (md, c) ← readVarint 64 ib c
    let (ws, c) ← take ib c mc.toNat
    if ws.any (fun y => decide (maxMiniWidth w < y.toNat)) then .error .badWidth
    else .ok { startBlock d c vc.toNat (bs.toNat / mc.toNat) (unzigzag u) (unzigzag md) with widths := ws }

/-- `loadMini(D)` (rule R322): a short last mini-block holds only the deltas that remain. -/
def loadMini {w : Nat} (ib : Memory) (d : DeltaDec w) : Except FaultCode (DeltaDec w) := do
  let k := min d.msz d.remv
  let wd := (d.widths.getD d.mbidx 0).toNat
  let (b, c) ← take ib d.csr (bytesFor (k * wd))
  .ok { d with csr := c, mb := (unpack b wd k).map (BitVec.ofNat 64), mbpos := 0, mbidx := d.mbidx + 1 }

/-- The last steps of `deltaNext` (rule R323): the exact sum, wrapped to sW. -/
def deltaAdvance {w : Nat} (d : DeltaDec w) : BitVec w × DeltaDec w :=
  let v := BitVec.ofInt w (d.cur.toInt + ((d.mb.getD d.mbpos 0).toNat : Int) + d.mind.toInt)
  (v, { d with cur := v, mbpos := d.mbpos + 1, remv := d.remv - 1 })

/-- A new block when the one before is used up (rule R323). -/
def nextBlock {w : Nat} (ib : Memory) (d : DeltaDec w) : Except FaultCode (DeltaDec w) :=
  if d.remv = 0 then readBlockHeader ib d else .ok d

/-- A new mini-block when the loaded one is used up (rule R323). -/
def nextMini {w : Nat} (ib : Memory) (d : DeltaDec w) : Except FaultCode (DeltaDec w) :=
  if d.mbpos = d.mb.length then loadMini ib d else .ok d

/-- `deltaNext(D, W)` (rule R323). -/
def deltaNext {w : Nat} (ib : Memory) (d : DeltaDec w) : Except FaultCode (BitVec w × DeltaDec w) := do
  let d ← nextBlock ib d
  if d.first then .ok (d.cur, { d with first := false, remv := d.remv - 1 })
  else do
    let d ← nextMini ib d
    .ok (deltaAdvance d)

/-- A delta decoder constructed over a cursor (rules R324, R326). `WIDTHS` is left as it was. DEDUCED (log
entry 14); safe. -/
def deltaInit {w : Nat} (d : DeltaDec w) (c : Cursor) : DeltaDec w :=
  { d with act := true, csr := c, remv := 0, first := false, cur := 0, mind := 0, msz := 0, mb := [], mbpos := 0,
           mbidx := 0 }

/-- `DINIT.4` (rule R324). -/
def execDinit4 (arg : DWord) (s : State) : Host.Outcome State Fault Refusal :=
  command (.dinit4 arg) s (.ok (s.setD4 (deltaInit s.d4 s.rc)))

/-- `DEC.4` (rule R325). -/
def execDec4 (arg : DWord) (s : State) : Host.Outcome State Fault Refusal :=
  command (.dec4 arg) s
    (if s.d4.act then do
       let (v, d) ← deltaNext s.ib s.d4
       .ok ((s.setD4 d).setR (sext64 v))
     else .error .decoderNotInitialised)

/-- `DINIT.5` (rule R326). -/
def execDinit5 (arg : DWord) (s : State) : Host.Outcome State Fault Refusal :=
  command (.dinit5 arg) s (.ok (s.setD5 (deltaInit s.d5 s.rc)))

/-- `DEC.5` (rule R327). -/
def execDec5 (arg : DWord) (s : State) : Host.Outcome State Fault Refusal :=
  command (.dec5 arg) s
    (if s.d5.act then do
       let (v, d) ← deltaNext s.ib s.d5
       .ok ((s.setD5 d).setR v)
     else .error .decoderNotInitialised)

end Sys2Proof.Machine
end

