-- ==== Sys2Proof/Machine/DeltaEncoder.lean ====
section
/-! DEFINITION. The adaptive delta block encoder: the block search, the lookahead and encoder units 4 and 5 (rules
R280 to R301). -/

namespace Sys2Proof.Machine

/-! ### The block -/

/-- `blockSize(n)` (rule R281). -/
def blockSize (n : Nat) : Nat :=
  if n = 0 then 0 else if n ≤ 8 then 8 else if n ≤ 16 then 16 else if n ≤ 32 then 32 else if n ≤ 64 then 64 else 128

/-- The deltas `d[i] = vals[i+1] − vals[i]`, exact (rule R282). -/
def deltas : List Int → List Int
  | a :: b :: t => (b - a) :: deltas (b :: t)
  | _ => []

/-- `mind`, the least delta (rule R282). -/
def minDelta : List Int → Int
  | [] => 0
  | d :: t => t.foldl min d

/-- `relS[i] = wrap_64(d[i] − mind)`, the stored relative deltas (rules R282, R286). -/
def storedRels (vals : List Int) : List Nat :=
  let d := deltas vals
  d.map fun x => (x - minDelta d).toNat % 2 ^ 64

/-- `mindS = swrap_64(mind)`, the stored min_delta (rule R286). -/
def storedMin (vals : List Int) : DWord := BitVec.ofInt 64 (minDelta (deltas vals))

/-- The values each of `mc` mini-blocks of size `m` holds (rule R283); a mini-block beyond the data holds none. -/
def miniBlocks (m : Nat) (rels : List Nat) : Nat → List (List Nat)
  | 0 => []
  | mc + 1 => rels.take m :: miniBlocks m (rels.drop m) mc

/-- `width_j` of a mini-block (rule R283). -/
def miniWidth (xs : List Nat) : Nat := bitWidth (maxOf xs)

/-- `serialize(vals, m, W)` (rule R284), for two or more values. -/
def serialize (w : Nat) (vals : List Int) (m : Nat) : Bytes :=
  let c := vals.length
  let bs := blockSize (c - 1)
  let mc := bs / m
  let minis := miniBlocks m (storedRels vals) mc
  varint bs ++ varint mc ++ varint c ++ varint (zigzag (BitVec.ofInt w (vals.headD 0))).toNat ++
    varint (zigzag (storedMin vals)).toNat ++ minis.map (fun xs => BitVec.ofNat 8 (miniWidth xs)) ++
    (minis.map fun xs => pack xs (miniWidth xs)).flatten

/-- `serialize1(vals, W)` (rule R285), the one-value block. -/
def serialize1 (w : Nat) (vals : List Int) : Bytes :=
  varint 0 ++ varint 0 ++ varint 1 ++ varint (zigzag (BitVec.ofInt w (vals.headD 0))).toNat

/-- The candidate mini-block sizes of a block size, ascending (rule R287). -/
def candidates (bs : Nat) : List Nat := [8, 16, 32, 64, 128].filter (· ≤ bs)

/-- Keep the shorter of two serialisations, the earlier one when they are equally long (rule R287). -/
def keepShorter (best : Option Bytes) (cand : Bytes) : Option Bytes :=
  match best with
  | none => some cand
  | some b => if cand.length < b.length then some cand else some b

/-- `best(vals, W)`: the search over mini-block sizes (rule R287). -/
def bestBlock (w : Nat) (vals : List Int) : Bytes :=
  if vals.length = 1 then serialize1 w vals
  else
    (((candidates (blockSize (vals.length - 1))).map (serialize w vals)).foldl keepShorter none).getD []

/-! ### The units -/

/-- The buffered values as numbers (rule R32: sW values). -/
def bufferedVals {w : Nat} (vb : List (BitVec w)) : List Int := vb.map BitVec.toInt

/-- `flushAll(Eu)` (rule R288). -/
def flushAll {w : Nat} (stcap : Nat) (e : DeltaEnc w) : Except FaultCode (DeltaEnc w) :=
  if 0 < e.vb.length then do
    let st ← append stcap e.st (bestBlock w (bufferedVals e.vb))
    .ok { e with st := st, vb := [] }
  else .ok e

/-- A full buffer is closed as a block (rules R290, R296). -/
def flushFull {w : Nat} (stcap : Nat) (e : DeltaEnc w) : Except FaultCode (DeltaEnc w) :=
  if e.vb.length = Config.bufValues then flushAll stcap e else .ok e

/-- A value into the buffer, after a full buffer has been flushed (rules R290, R296). -/
def deltaBuffer {w : Nat} (stcap : Nat) (e : DeltaEnc w) (v : BitVec w) : Except FaultCode (DeltaEnc w) := do
  let e' ← flushFull stcap e
  .ok { e' with vb := e'.vb ++ [v] }

/-- The split point `N` of the lookahead for `n` deltas (rule R289). -/
def splitPoint (n : Nat) : Nat := 1 + 8 * ((n - 1) / 8)

/-- `lookahead(E5)` (rule R289). -/
def lookahead {w : Nat} (stcap : Nat) (e : DeltaEnc w) : Except FaultCode (DeltaEnc w) :=
  let n := e.vb.length - 1
  if 8 < n then
    let k := splitPoint n
    let vals := bufferedVals e.vb
    let one := (bestBlock w vals).length
    let split := (bestBlock w (vals.take k)).length + (bestBlock w (vals.drop k)).length
    if split < one then do
      let st ← append stcap e.st (bestBlock w (vals.take k))
      .ok { e with st := st, vb := e.vb.drop k }
    else .ok e
  else .ok e

/-- The pseudocode of `FIN.4` and `FIN.5` (rules R291, R297). -/
def deltaFinish {w : Nat} (stcap : Nat) (e : DeltaEnc w) : Except FaultCode (DeltaEnc w) :=
  if e.fin then .ok e
  else do
    let e' ← flushAll stcap e
    .ok { e' with fin := true }

/-- The estimate of units 4 and 5: `per` bytes a buffered value (rules R294, R300). -/
def deltaEst {w : Nat} (per : Nat) (e : DeltaEnc w) : Nat :=
  e.st.length + if 0 < e.vb.length then 32 + per * e.vb.length else 0

/-- `ENC.4` (rule R290). -/
def execEnc4 (arg : DWord) (s : State) : Host.Outcome State Fault Refusal :=
  command (.enc4 arg) s
    (if s.e4.fin then .error .encodeAfterFinish
     else do
       let e ← deltaBuffer s.params.stcap s.e4 (argWord arg)
       .ok (s.setE4 e))

/-- `FIN.4` (rule R291). -/
def execFin4 (arg : DWord) (s : State) : Host.Outcome State Fault Refusal :=
  command (.fin4 arg) s do
    let e ← deltaFinish s.params.stcap s.e4
    .ok (s.setE4 e)

/-- `RST.4` (rule R292). -/
def execRst4 (arg : DWord) (s : State) : Host.Outcome State Fault Refusal :=
  command (.rst4 arg) s (.ok (s.setE4 {}))

/-- `SIZE.4` (rule R293). -/
def execSize4 (arg : DWord) (s : State) : Host.Outcome State Fault Refusal :=
  command (.size4 arg) s (.ok (s.setR (natResult s.e4.st.length)))

/-- `EST.4` (rule R294). -/
def execEst4 (arg : DWord) (s : State) : Host.Outcome State Fault Refusal :=
  command (.est4 arg) s (.ok (s.setR (natResult (deltaEst 5 s.e4))))

/-- `WTO.4` (rule R295). -/
def execWto4 (arg : DWord) (s : State) : Host.Outcome State Fault Refusal :=
  command (.wto4 arg) s do
    let e ← deltaFinish s.params.stcap s.e4
    appendOB (s.setE4 e) e.st

/-- `ENC.5` (rule R296): as `ENC.4`, then the lookahead. -/
def execEnc5 (arg : DWord) (s : State) : Host.Outcome State Fault Refusal :=
  command (.enc5 arg) s
    (if s.e5.fin then .error .encodeAfterFinish
     else do
       let e ← deltaBuffer s.params.stcap s.e5 arg
       let e ← lookahead s.params.stcap e
       .ok (s.setE5 e))

/-- `FIN.5` (rule R297). -/
def execFin5 (arg : DWord) (s : State) : Host.Outcome State Fault Refusal :=
  command (.fin5 arg) s do
    let e ← deltaFinish s.params.stcap s.e5
    .ok (s.setE5 e)

/-- `RST.5` (rule R298). -/
def execRst5 (arg : DWord) (s : State) : Host.Outcome State Fault Refusal :=
  command (.rst5 arg) s (.ok (s.setE5 {}))

/-- `SIZE.5` (rule R299). -/
def execSize5 (arg : DWord) (s : State) : Host.Outcome State Fault Refusal :=
  command (.size5 arg) s (.ok (s.setR (natResult s.e5.st.length)))

/-- `EST.5` (rule R300). -/
def execEst5 (arg : DWord) (s : State) : Host.Outcome State Fault Refusal :=
  command (.est5 arg) s (.ok (s.setR (natResult (deltaEst 9 s.e5))))

/-- `WTO.5` (rule R301). -/
def execWto5 (arg : DWord) (s : State) : Host.Outcome State Fault Refusal :=
  command (.wto5 arg) s do
    let e ← deltaFinish s.params.stcap s.e5
    appendOB (s.setE5 e) e.st

end Sys2Proof.Machine
end

