-- ==== Sys2Proof/Machine/HybridDecoder.lean ====
section
/-! DEFINITION. The hybrid run-length / bit-packing decoder: decoder units 1 and 3 (rules R260 to R265). -/

namespace Sys2Proof.Machine

/-- One pass of the loop of `rleNext` (rule R261): the value it returns, if it returns, and the decoder after. -/
def rlePass (ib : Memory) (d : HybridDec) : Except FaultCode (Option Word × HybridDec) :=
  if d.mode = .rle ∧ 0 < d.rem then .ok (some d.val, { d with rem := d.rem - 1 })
  else if d.mode = .packed ∧ d.opos < 8 then .ok (some (d.oct.getD d.opos 0), { d with opos := d.opos + 1 })
  else if d.mode = .packed ∧ 0 < d.rem then do
    let (b, c) ← take ib d.csr d.wid
    .ok (none, { d with csr := c, oct := (unpack b d.wid 8).map (BitVec.ofNat 32), opos := 0, rem := d.rem - 1 })
  else do
    let (h, c) ← readVarint 32 ib d.csr
    if h.toNat % 2 = 1 then .ok (none, { d with csr := c, mode := .packed, rem := h.toNat / 2, opos := 8 })
    else do
      let (b, c') ← take ib c (bytesFor d.wid)
      .ok (none, { d with csr := c', mode := .rle, rem := h.toNat / 2,
                          val := BitVec.ofNat 32 ((unpack b d.wid 1).headD 0) })

/-- The loop of `rleNext`, run at most `fuel` times. -/
def rleLoop (ib : Memory) : Nat → HybridDec → Except FaultCode (Word × HybridDec)
  | 0, _ => .error .readPastEnd
  | fuel + 1, d => do
    let (x, d') ← rlePass ib d
    match x with
    | some v => .ok (v, d')
    | none => rleLoop ib fuel d'

/-- `rleNext(D)` (rule R261). Every pass that reads a header takes at least one byte and a loaded octuplet is
followed at once by a return, so the bytes left before the limit, and three turns more, are enough. The answer of a
loop out of turns is never given: DESIGN CHOICE (log entry 10). -/
def rleNext (ib : Memory) (d : HybridDec) : Except FaultCode (Word × HybridDec) :=
  rleLoop ib (d.csr.lim.toNat - d.csr.pos.toNat + 3) d

/-- A hybrid decoder constructed over a cursor at width `w` (rules R262, R264). `OCT` is left as it was.
DEDUCED (log entry 14); safe. -/
def hybridInit (d : HybridDec) (c : Cursor) (w : Nat) : HybridDec :=
  { d with act := true, csr := c, wid := w, mode := .idle, rem := 0, val := 0, opos := 8 }

/-- The construction of decoder unit 3 (rule R264): the width byte is read through the private cursor. -/
def hybridInitPrefixed (ib : Memory) (d : HybridDec) (c : Cursor) : Except FaultCode HybridDec := do
  let (y, c') ← takeByte ib c
  if Config.maxWidth32 < y.toNat then .error .badWidth else .ok (hybridInit d c' y.toNat)

/-- `DINIT.1` (rule R262). -/
def execDinit1 (width : Byte) (arg : DWord) (s : State) : Host.Outcome State Fault Refusal :=
  command (.dinit1 width arg) s (.ok (s.setD1 (hybridInit s.d1 s.rc width.toNat)))

/-- `DEC.1` (rule R263). -/
def execDec1 (arg : DWord) (s : State) : Host.Outcome State Fault Refusal :=
  command (.dec1 arg) s
    (if s.d1.act then do
       let (v, d) ← rleNext s.ib s.d1
       .ok ((s.setD1 d).setR (zext64 v))
     else .error .decoderNotInitialised)

/-- `DINIT.3` (rule R264). -/
def execDinit3 (arg : DWord) (s : State) : Host.Outcome State Fault Refusal :=
  command (.dinit3 arg) s do
    let d ← hybridInitPrefixed s.ib s.d3 s.rc
    .ok (s.setD3 d)

/-- `DEC.3` (rule R265). -/
def execDec3 (arg : DWord) (s : State) : Host.Outcome State Fault Refusal :=
  command (.dec3 arg) s
    (if s.d3.act then do
       let (v, d) ← rleNext s.ib s.d3
       .ok ((s.setD3 d).setR (zext64 v))
     else .error .decoderNotInitialised)

end Sys2Proof.Machine
end

