-- ==== Sys2Proof/Machine/HybridEncoder.lean ====
section
/-! DEFINITION. The hybrid run-length / bit-packing encoder: the engine and encoder units 1, 2 and 3 (rules R220
to R248). -/

namespace Sys2Proof.Machine

/-! ### The engine -/

/-- The threshold of rule R221, with the value 1 the spec sets at width 0. -/
def threshold (w : Nat) : Nat :=
  if w = 0 then 1 else (2 + bytesFor w) * 8 / w + 1

/-- `buffer(E, v)` (rule R222). -/
def bufferValue (p : Config.Params) (e : HybridEnc) (v : Word) : Except FaultCode HybridEnc :=
  let oct := e.oct ++ [v]
  if oct.length = 8 then do
    let pr ← append p.prcap e.pr (pack (oct.map BitVec.toNat) e.wid)
    .ok { e with pr := pr, noct := e.noct + 1, oct := [] }
  else .ok { e with oct := oct }

/-- `repeat n times: buffer(E, v)` (rules R224, R229). -/
def bufferRepeat (p : Config.Params) (v : Word) : Nat → HybridEnc → Except FaultCode HybridEnc
  | 0, e => .ok e
  | n + 1, e => do
    let e' ← bufferValue p e v
    bufferRepeat p v n e'

/-- `flushPacked(E)` (rule R223). -/
def flushPacked (p : Config.Params) (e : HybridEnc) : Except FaultCode HybridEnc :=
  if 0 < e.noct then do
    let st ← append p.stcap e.st (varint ((e.noct <<< 1) ||| 1))
    let st ← append p.stcap st e.pr
    .ok { e with st := st, noct := 0, pr := [] }
  else .ok e

/-- `flushRLE(E)` (rule R223). -/
def flushRLE (p : Config.Params) (e : HybridEnc) : Except FaultCode HybridEnc := do
  let e ← flushPacked p e
  let st ← append p.stcap e.st (varint (e.rn <<< 1))
  let st ← append p.stcap st (pack [e.rv.toNat] e.wid)
  .ok { e with st := st, rn := 0 }

/-- The first two branches of `encode1` (rule R224), for an engine without a candidate: mid-octuplet the value is
bit-packed, at an octuplet boundary it starts a candidate. -/
def encodeFresh (p : Config.Params) (e : HybridEnc) (v : Word) : Except FaultCode HybridEnc :=
  if e.oct ≠ [] then bufferValue p e v else .ok { e with rv := v, rn := 1 }

/-- `encode1(E, v)` (rule R224). The recursion of the last branch is one level deep: after the absorption there is
no candidate. -/
def encode1 (p : Config.Params) (e : HybridEnc) (v : Word) : Except FaultCode HybridEnc :=
  if e.oct ≠ [] ∨ e.rn = 0 then encodeFresh p e v
  else if v = e.rv then
    if e.rn = Config.maxRun then .error .capacity else .ok { e with rn := e.rn + 1 }
  else if threshold e.wid ≤ e.rn then do
    let e' ← flushRLE p e
    .ok { e' with rv := v, rn := 1 }
  else do
    let e' ← bufferRepeat p e.rv e.rn e
    encodeFresh p { e' with rn := 0 } v

/-- `for i: encode1(E, RAW[i])` (rule R236). -/
def encodeAll (p : Config.Params) : List Word → HybridEnc → Except FaultCode HybridEnc
  | [], e => .ok e
  | v :: vs, e => do
    let e' ← encode1 p e v
    encodeAll p vs e'

/-- `engineClear(E)` (rule R225): `WID` and the staging buffer stay. -/
def engineClear (e : HybridEnc) : HybridEnc :=
  { e with rv := 0, rn := 0, oct := [], pr := [], noct := 0 }

/-- `engineEst(E)` (rule R226). -/
def engineEst (e : HybridEnc) : Nat :=
  let n := e.noct + if e.oct = [] then 0 else 1
  e.st.length + (if 0 < n then varlen ((n <<< 1) ||| 1) + n * e.wid else 0) +
    if 0 < e.rn then varlen (e.rn <<< 1) + bytesFor e.wid else 0

/-- `finish1(E)` (rule R229). -/
def finish1 (p : Config.Params) (e : HybridEnc) : Except FaultCode HybridEnc :=
  if e.oct ≠ [] then do
    let e' ← bufferRepeat p 0 (8 - e.oct.length) e
    flushPacked p e'
  else if 0 < e.rn then flushRLE p e
  else flushPacked p e

/-! ### Unit 1 -/

/-- The pseudocode of `FIN.1` (rule R231). -/
def hybridFinish (p : Config.Params) (e : HybridEnc) : Except FaultCode HybridEnc :=
  if e.fin then .ok e
  else do
    let e' ← finish1 p e
    .ok { e' with fin := true }

/-- `ENC.1` (rule R230). -/
def execEnc1 (arg : DWord) (s : State) : Host.Outcome State Fault Refusal :=
  command (.enc1 arg) s
    (if s.e1.fin then .error .encodeAfterFinish
     else do
       let e ← encode1 s.params s.e1 (argWord arg)
       .ok (s.setE1 e))

/-- `FIN.1` (rule R231). -/
def execFin1 (arg : DWord) (s : State) : Host.Outcome State Fault Refusal :=
  command (.fin1 arg) s do
    let e ← hybridFinish s.params s.e1
    .ok (s.setE1 e)

/-- `RST.1` (rule R232): empty the unit and set its width. -/
def execRst1 (width : Byte) (arg : DWord) (s : State) : Host.Outcome State Fault Refusal :=
  command (.rst1 width arg) s
    (.ok (s.setE1 { engineClear s.e1 with st := [], fin := false, wid := width.toNat }))

/-- `SIZE.1` (rule R233). -/
def execSize1 (arg : DWord) (s : State) : Host.Outcome State Fault Refusal :=
  command (.size1 arg) s (.ok (s.setR (natResult s.e1.st.length)))

/-- `EST.1` (rule R234). -/
def execEst1 (arg : DWord) (s : State) : Host.Outcome State Fault Refusal :=
  command (.est1 arg) s (.ok (s.setR (natResult (engineEst s.e1))))

/-- `WTO.1` (rule R235). -/
def execWto1 (arg : DWord) (s : State) : Host.Outcome State Fault Refusal :=
  command (.wto1 arg) s do
    let e ← hybridFinish s.params s.e1
    appendOB (s.setE1 e) e.st

/-! ### Units 2 and 3 -/

/-- The encode step of units 2 and 3 (rules R237, R243): buffer one raw value. -/
def selfEncode (p : Config.Params) (u : SelfEnc) (v : Word) : Except FaultCode SelfEnc :=
  if p.rawcap ≤ u.raw.length then .error .capacity
  else .ok { u with raw := u.raw ++ [v], wmax := max u.wmax (bitWidth v.toNat) }

/-- The staging buffer once the width byte of a width-prefixed stream stands in it (rule R236). -/
def stageWidth (p : Config.Params) (prefixed : Bool) (st : Bytes) (w : Nat) : Except FaultCode Bytes :=
  if prefixed then append p.stcap st [BitVec.ofNat 8 w] else .ok st

/-- `selfFinish(Eu, prefixed)` (rule R236): choose the width, then replay. -/
def selfFinish (p : Config.Params) (prefixed : Bool) (u : SelfEnc) : Except FaultCode SelfEnc := do
  let st ← stageWidth p prefixed u.hyb.st u.wmax
  let e ← encodeAll p u.raw { engineClear u.hyb with wid := u.wmax, st := st }
  let e ← finish1 p e
  .ok { u with hyb := e }

/-- The pseudocode of `FIN.2` and `FIN.3` (rules R238, R244). -/
def selfUnitFinish (p : Config.Params) (prefixed : Bool) (u : SelfEnc) : Except FaultCode SelfEnc :=
  if u.hyb.fin then .ok u
  else do
    let u' ← selfFinish p prefixed u
    .ok { u' with hyb := { u'.hyb with fin := true } }

/-- One bit-packed run of the buffered values at the width seen so far (rules R241, R247). -/
def selfRunEst (u : SelfEnc) : Nat :=
  let g := bytesFor u.raw.length
  if 0 < u.raw.length then varlen ((g <<< 1) ||| 1) + g * u.wmax else 0

/-- `RST.2` and `RST.3` (rules R239, R245): the unit with nothing staged, pending or buffered. -/
def selfReset (u : SelfEnc) : SelfEnc :=
  { u with hyb := { engineClear u.hyb with st := [], fin := false, wid := 0 }, raw := [], wmax := 0 }

/-- `ENC.2` (rule R237). -/
def execEnc2 (arg : DWord) (s : State) : Host.Outcome State Fault Refusal :=
  command (.enc2 arg) s
    (if s.e2.hyb.fin then .error .encodeAfterFinish
     else do
       let u ← selfEncode s.params s.e2 (argWord arg)
       .ok (s.setE2 u))

/-- `FIN.2` (rule R238). -/
def execFin2 (arg : DWord) (s : State) : Host.Outcome State Fault Refusal :=
  command (.fin2 arg) s do
    let u ← selfUnitFinish s.params false s.e2
    .ok (s.setE2 u)

/-- `RST.2` (rule R239). -/
def execRst2 (arg : DWord) (s : State) : Host.Outcome State Fault Refusal :=
  command (.rst2 arg) s (.ok (s.setE2 (selfReset s.e2)))

/-- `SIZE.2` (rule R240). -/
def execSize2 (arg : DWord) (s : State) : Host.Outcome State Fault Refusal :=
  command (.size2 arg) s (.ok (s.setR (natResult s.e2.hyb.st.length)))

/-- `EST.2` (rule R241). -/
def execEst2 (arg : DWord) (s : State) : Host.Outcome State Fault Refusal :=
  command (.est2 arg) s
    (.ok (s.setR (natResult (if s.e2.hyb.fin then s.e2.hyb.st.length else selfRunEst s.e2))))

/-- `WTO.2` (rule R242). -/
def execWto2 (arg : DWord) (s : State) : Host.Outcome State Fault Refusal :=
  command (.wto2 arg) s do
    let u ← selfUnitFinish s.params false s.e2
    appendOB (s.setE2 u) u.hyb.st

/-- `ENC.3` (rule R243). -/
def execEnc3 (arg : DWord) (s : State) : Host.Outcome State Fault Refusal :=
  command (.enc3 arg) s
    (if s.e3.hyb.fin then .error .encodeAfterFinish
     else do
       let u ← selfEncode s.params s.e3 (argWord arg)
       .ok (s.setE3 u))

/-- `FIN.3` (rule R244). -/
def execFin3 (arg : DWord) (s : State) : Host.Outcome State Fault Refusal :=
  command (.fin3 arg) s do
    let u ← selfUnitFinish s.params true s.e3
    .ok (s.setE3 u)

/-- `RST.3` (rule R245). -/
def execRst3 (arg : DWord) (s : State) : Host.Outcome State Fault Refusal :=
  command (.rst3 arg) s (.ok (s.setE3 (selfReset s.e3)))

/-- `SIZE.3` (rule R246). -/
def execSize3 (arg : DWord) (s : State) : Host.Outcome State Fault Refusal :=
  command (.size3 arg) s (.ok (s.setR (natResult s.e3.hyb.st.length)))

/-- `EST.3` (rule R247): one more than `EST.2`'s formula, for the width byte. -/
def execEst3 (arg : DWord) (s : State) : Host.Outcome State Fault Refusal :=
  command (.est3 arg) s
    (.ok (s.setR (natResult (if s.e3.hyb.fin then s.e3.hyb.st.length else 1 + selfRunEst s.e3))))

/-- `WTO.3` (rule R248). -/
def execWto3 (arg : DWord) (s : State) : Host.Outcome State Fault Refusal :=
  command (.wto3 arg) s do
    let u ← selfUnitFinish s.params true s.e3
    appendOB (s.setE3 u) u.hyb.st

end Sys2Proof.Machine
end

