-- ==== Sys2Proof/Machine/Manage.lean ====
section
/-! DEFINITION. Buffer and register management commands, opcode family 0x0 (rules R131 to R137). -/

namespace Sys2Proof.Machine

/-- `NOP` (rule R131). -/
def execNop (arg : DWord) (s : State) : Host.Outcome State Fault Refusal :=
  command (.nop arg) s (.ok s)

/-- `OBCLR` (rule R132): `OBLEN <- 0`. -/
def execObclr (arg : DWord) (s : State) : Host.Outcome State Fault Refusal :=
  command (.obclr arg) s (.ok (s.setOB []))

/-- `OBPOKE` (rule R133): overwrite the byte at a previously written offset. -/
def execObpoke (byte : Byte) (arg : DWord) (s : State) : Host.Outcome State Fault Refusal :=
  command (.obpoke byte arg) s
    (if s.ob.length ≤ (argWord arg).toNat then .error .badRange
     else .ok (s.setOB (s.ob.set (argWord arg).toNat byte)))

/-- `RCATT` (rule R134): a new stream for the main cursor; every decoder is dropped. -/
def execRcatt (arg : DWord) (s : State) : Host.Outcome State Fault Refusal :=
  command (.rcatt arg) s
    (if s.params.ibcap < (argWord arg).toNat then .error .badRange
     else .ok (((s.setRCEnd (argWord arg)).setRC ⟨0, argWord arg⟩).detachDecoders))

/-- `RCSLICE` (rule R135): the sum `RCPOS + n` is exact. -/
def execRcslice (arg : DWord) (s : State) : Host.Outcome State Fault Refusal :=
  command (.rcslice arg) s
    (if s.rc.lim.toNat < s.rc.pos.toNat + (argWord arg).toNat then .error .readPastEnd
     else .ok (s.setRC { s.rc with lim := BitVec.ofNat 32 (s.rc.pos.toNat + (argWord arg).toNat) }))

/-- `RCUNSL` (rule R136): `RCLIM <- RCEND`. -/
def execRcunsl (arg : DWord) (s : State) : Host.Outcome State Fault Refusal :=
  command (.rcunsl arg) s (.ok (s.setRC { s.rc with lim := s.rcend }))

/-- `VSET` (rule R137): `V[i] <- ARG`. -/
def execVset (lane : Byte) (arg : DWord) (s : State) : Host.Outcome State Fault Refusal :=
  command (.vset lane arg) s (.ok (s.setV (s.v.setIfInBounds lane.toNat arg)))

end Sys2Proof.Machine
end

