-- ==== Sys2Proof/Machine/Pure.lean ====
section
/-! DEFINITION. The pure functions, opcode family 0x1 (rules R138 to R143): they read `ARG`, write `R` and touch
nothing else. -/

namespace Sys2Proof.Machine

/-- `BITW32` (rule R138). -/
def execBitw32 (arg : DWord) (s : State) : Host.Outcome State Fault Refusal :=
  command (.bitw32 arg) s (.ok (s.setR (natResult (bitWidth (argWord arg).toNat))))

/-- `BITW64` (rule R139). -/
def execBitw64 (arg : DWord) (s : State) : Host.Outcome State Fault Refusal :=
  command (.bitw64 arg) s (.ok (s.setR (natResult (bitWidth arg.toNat))))

/-- `ZZE32` (rule R140). -/
def execZze32 (arg : DWord) (s : State) : Host.Outcome State Fault Refusal :=
  command (.zze32 arg) s (.ok (s.setR (zext64 (zigzag (argWord arg)))))

/-- `ZZE64` (rule R141). -/
def execZze64 (arg : DWord) (s : State) : Host.Outcome State Fault Refusal :=
  command (.zze64 arg) s (.ok (s.setR (zigzag arg)))

/-- `ZZD32` (rule R142): the s32 result is sign-extended. -/
def execZzd32 (arg : DWord) (s : State) : Host.Outcome State Fault Refusal :=
  command (.zzd32 arg) s (.ok (s.setR (sext64 (unzigzag (argWord arg)))))

/-- `ZZD64` (rule R143). -/
def execZzd64 (arg : DWord) (s : State) : Host.Outcome State Fault Refusal :=
  command (.zzd64 arg) s (.ok (s.setR (unzigzag arg)))

end Sys2Proof.Machine
end

