-- ==== Sys2Proof/Machine/Read.lean ====
section
/-! DEFINITION. Read primitives, opcode family 0x3 (rules R180 to R189): each reads one encoded item at the main
cursor. -/

namespace Sys2Proof.Machine

/-- `RFIX32` (rule R181): zero-extended. -/
def execRfix32 (arg : DWord) (s : State) : Host.Outcome State Fault Refusal :=
  command (.rfix32 arg) s do
    let (b, s') ← takeRC s 4
    .ok (s'.setR (zext64 (BitVec.ofNat 32 (leVal b))))

/-- `RFIX64` (rule R182). -/
def execRfix64 (arg : DWord) (s : State) : Host.Outcome State Fault Refusal :=
  command (.rfix64 arg) s do
    let (b, s') ← takeRC s 8
    .ok (s'.setR (BitVec.ofNat 64 (leVal b)))

/-- `RVAR32` (rule R183). -/
def execRvar32 (arg : DWord) (s : State) : Host.Outcome State Fault Refusal :=
  command (.rvar32 arg) s do
    let (x, s') ← readVarintRC 32 s
    .ok (s'.setR (zext64 x))

/-- `RVAR64` (rule R184). -/
def execRvar64 (arg : DWord) (s : State) : Host.Outcome State Fault Refusal :=
  command (.rvar64 arg) s do
    let (x, s') ← readVarintRC 64 s
    .ok (s'.setR x)

/-- `RZZ32` (rule R185): the s32 result is sign-extended. -/
def execRzz32 (arg : DWord) (s : State) : Host.Outcome State Fault Refusal :=
  command (.rzz32 arg) s do
    let (x, s') ← readVarintRC 32 s
    .ok (s'.setR (sext64 (unzigzag x)))

/-- `RZZ64` (rule R186). -/
def execRzz64 (arg : DWord) (s : State) : Host.Outcome State Fault Refusal :=
  command (.rzz64 arg) s do
    let (x, s') ← readVarintRC 64 s
    .ok (s'.setR (unzigzag x))

/-- `RPACK32` (rule R187): lanes 0 to count−1 take the values, the others keep theirs. -/
def execRpack32 (width count : Byte) (arg : DWord) (s : State) : Host.Outcome State Fault Refusal :=
  command (.rpack32 width count arg) s do
    let (b, s') ← takeRC s (bytesFor (count.toNat * width.toNat))
    .ok (s'.setV (setLanes s.v 0 ((unpack b width.toNat count.toNat).map (BitVec.ofNat 64))))

/-- `RPACK64` (rule R188). -/
def execRpack64 (width count : Byte) (arg : DWord) (s : State) : Host.Outcome State Fault Refusal :=
  command (.rpack64 width count arg) s do
    let (b, s') ← takeRC s (bytesFor (count.toNat * width.toNat))
    .ok (s'.setV (setLanes s.v 0 ((unpack b width.toNat count.toNat).map (BitVec.ofNat 64))))

/-- `RPBOOL` (rule R189): boolean `i` of the byte in `R[i]`. -/
def execRpbool (arg : DWord) (s : State) : Host.Outcome State Fault Refusal :=
  command (.rpbool arg) s do
    let (b, s') ← takeRC s 1
    .ok (s'.setR (boolsResult (unpbool (b.headD 0))))

end Sys2Proof.Machine
end

