-- ==== Sys2Proof/Machine/Write.lean ====
section
/-! DEFINITION. Write primitives, opcode family 0x2 (rules R160 to R169): each appends one encoded item to OB. -/

namespace Sys2Proof.Machine

/-- `WFIX32` (rule R161). -/
def execWfix32 (arg : DWord) (s : State) : Host.Outcome State Fault Refusal :=
  command (.wfix32 arg) s (appendOB s (bytesLE (argWord arg).toNat 4))

/-- `WFIX64` (rule R162). -/
def execWfix64 (arg : DWord) (s : State) : Host.Outcome State Fault Refusal :=
  command (.wfix64 arg) s (appendOB s (bytesLE arg.toNat 8))

/-- `WVAR32` (rule R163). -/
def execWvar32 (arg : DWord) (s : State) : Host.Outcome State Fault Refusal :=
  command (.wvar32 arg) s (appendOB s (varint (argWord arg).toNat))

/-- `WVAR64` (rule R164). -/
def execWvar64 (arg : DWord) (s : State) : Host.Outcome State Fault Refusal :=
  command (.wvar64 arg) s (appendOB s (varint arg.toNat))

/-- `WZZ32` (rule R165). -/
def execWzz32 (arg : DWord) (s : State) : Host.Outcome State Fault Refusal :=
  command (.wzz32 arg) s (appendOB s (varint (zigzag (argWord arg)).toNat))

/-- `WZZ64` (rule R166). -/
def execWzz64 (arg : DWord) (s : State) : Host.Outcome State Fault Refusal :=
  command (.wzz64 arg) s (appendOB s (varint (zigzag arg).toNat))

/-- `WPACK32` (rule R167): bits 31:0 of each lane. -/
def execWpack32 (width count : Byte) (arg : DWord) (s : State) : Host.Outcome State Fault Refusal :=
  command (.wpack32 width count arg) s
    (appendOB s (pack ((lanes s.v count.toNat).map fun x => (argWord x).toNat) width.toNat))

/-- `WPACK64` (rule R168): all 64 bits of each lane. -/
def execWpack64 (width count : Byte) (arg : DWord) (s : State) : Host.Outcome State Fault Refusal :=
  command (.wpack64 width count arg) s
    (appendOB s (pack ((lanes s.v count.toNat).map BitVec.toNat) width.toNat))

/-- `WPBOOL` (rule R169): bit `7−i` of the byte is `ARG[i]`. -/
def execWpbool (arg : DWord) (s : State) : Host.Outcome State Fault Refusal :=
  command (.wpbool arg) s (appendOB s [pbool (argBools arg)])

end Sys2Proof.Machine
end

