-- ==== Sys2Proof/Machine/Dispatch.lean ====
section
/-! DEFINITION. Which meaning each command of rule R104 has. -/

namespace Sys2Proof.Machine

def exec (i : Instr) (s : State) : Host.Outcome State Fault Refusal :=
  match i with
  | .nop arg => Sys2Proof.Machine.execNop arg s
  | .obclr arg => Sys2Proof.Machine.execObclr arg s
  | .obpoke byte arg => Sys2Proof.Machine.execObpoke byte arg s
  | .rcatt arg => Sys2Proof.Machine.execRcatt arg s
  | .rcslice arg => Sys2Proof.Machine.execRcslice arg s
  | .rcunsl arg => Sys2Proof.Machine.execRcunsl arg s
  | .vset lane arg => Sys2Proof.Machine.execVset lane arg s
  | .bitw32 arg => Sys2Proof.Machine.execBitw32 arg s
  | .bitw64 arg => Sys2Proof.Machine.execBitw64 arg s
  | .zze32 arg => Sys2Proof.Machine.execZze32 arg s
  | .zze64 arg => Sys2Proof.Machine.execZze64 arg s
  | .zzd32 arg => Sys2Proof.Machine.execZzd32 arg s
  | .zzd64 arg => Sys2Proof.Machine.execZzd64 arg s
  | .wfix32 arg => Sys2Proof.Machine.execWfix32 arg s
  | .wfix64 arg => Sys2Proof.Machine.execWfix64 arg s
  | .wvar32 arg => Sys2Proof.Machine.execWvar32 arg s
  | .wvar64 arg => Sys2Proof.Machine.execWvar64 arg s
  | .wzz32 arg => Sys2Proof.Machine.execWzz32 arg s
  | .wzz64 arg => Sys2Proof.Machine.execWzz64 arg s
  | .wpack32 width count arg => Sys2Proof.Machine.execWpack32 width count arg s
  | .wpack64 width count arg => Sys2Proof.Machine.execWpack64 width count arg s
  | .wpbool arg => Sys2Proof.Machine.execWpbool arg s
  | .rfix32 arg => Sys2Proof.Machine.execRfix32 arg s
  | .rfix64 arg => Sys2Proof.Machine.execRfix64 arg s
  | .rvar32 arg => Sys2Proof.Machine.execRvar32 arg s
  | .rvar64 arg => Sys2Proof.Machine.execRvar64 arg s
  | .rzz32 arg => Sys2Proof.Machine.execRzz32 arg s
  | .rzz64 arg => Sys2Proof.Machine.execRzz64 arg s
  | .rpack32 width count arg => Sys2Proof.Machine.execRpack32 width count arg s
  | .rpack64 width count arg => Sys2Proof.Machine.execRpack64 width count arg s
  | .rpbool arg => Sys2Proof.Machine.execRpbool arg s
  | .enc0 arg => Sys2Proof.Machine.execEnc0 arg s
  | .enc1 arg => Sys2Proof.Machine.execEnc1 arg s
  | .enc2 arg => Sys2Proof.Machine.execEnc2 arg s
  | .enc3 arg => Sys2Proof.Machine.execEnc3 arg s
  | .enc4 arg => Sys2Proof.Machine.execEnc4 arg s
  | .enc5 arg => Sys2Proof.Machine.execEnc5 arg s
  | .fin0 arg => Sys2Proof.Machine.execFin0 arg s
  | .fin1 arg => Sys2Proof.Machine.execFin1 arg s
  | .fin2 arg => Sys2Proof.Machine.execFin2 arg s
  | .fin3 arg => Sys2Proof.Machine.execFin3 arg s
  | .fin4 arg => Sys2Proof.Machine.execFin4 arg s
  | .fin5 arg => Sys2Proof.Machine.execFin5 arg s
  | .rst0 arg => Sys2Proof.Machine.execRst0 arg s
  | .rst1 width arg => Sys2Proof.Machine.execRst1 width arg s
  | .rst2 arg => Sys2Proof.Machine.execRst2 arg s
  | .rst3 arg => Sys2Proof.Machine.execRst3 arg s
  | .rst4 arg => Sys2Proof.Machine.execRst4 arg s
  | .rst5 arg => Sys2Proof.Machine.execRst5 arg s
  | .size0 arg => Sys2Proof.Machine.execSize0 arg s
  | .size1 arg => Sys2Proof.Machine.execSize1 arg s
  | .size2 arg => Sys2Proof.Machine.execSize2 arg s
  | .size3 arg => Sys2Proof.Machine.execSize3 arg s
  | .size4 arg => Sys2Proof.Machine.execSize4 arg s
  | .size5 arg => Sys2Proof.Machine.execSize5 arg s
  | .est0 arg => Sys2Proof.Machine.execEst0 arg s
  | .est1 arg => Sys2Proof.Machine.execEst1 arg s
  | .est2 arg => Sys2Proof.Machine.execEst2 arg s
  | .est3 arg => Sys2Proof.Machine.execEst3 arg s
  | .est4 arg => Sys2Proof.Machine.execEst4 arg s
  | .est5 arg => Sys2Proof.Machine.execEst5 arg s
  | .wto0 arg => Sys2Proof.Machine.execWto0 arg s
  | .wto1 arg => Sys2Proof.Machine.execWto1 arg s
  | .wto2 arg => Sys2Proof.Machine.execWto2 arg s
  | .wto3 arg => Sys2Proof.Machine.execWto3 arg s
  | .wto4 arg => Sys2Proof.Machine.execWto4 arg s
  | .wto5 arg => Sys2Proof.Machine.execWto5 arg s
  | .dinit0 arg => Sys2Proof.Machine.execDinit0 arg s
  | .dinit1 width arg => Sys2Proof.Machine.execDinit1 width arg s
  | .dinit3 arg => Sys2Proof.Machine.execDinit3 arg s
  | .dinit4 arg => Sys2Proof.Machine.execDinit4 arg s
  | .dinit5 arg => Sys2Proof.Machine.execDinit5 arg s
  | .dec0 arg => Sys2Proof.Machine.execDec0 arg s
  | .dec1 arg => Sys2Proof.Machine.execDec1 arg s
  | .dec3 arg => Sys2Proof.Machine.execDec3 arg s
  | .dec4 arg => Sys2Proof.Machine.execDec4 arg s
  | .dec5 arg => Sys2Proof.Machine.execDec5 arg s

end Sys2Proof.Machine
end

