-- ==== Sys2Proof/Machine/RegisterPort.lean ====
section
/-! DEFINITION. What the host can read between commands: the register read port (rule R24) and the defined bytes of
OB (rule R40). Reading has no side effect, so these are functions of the state. DEDUCED (log entry 13); safe. -/

namespace Sys2Proof.Machine

/-- A length or count read as a 32-bit register. -/
def lenWord (n : Nat) : DWord := zext64 (BitVec.ofNat 32 n)

/-- The register read port (rule R24), each register zero-extended to 64 bits; a number not in the table reads
as 0. -/
def readRegister (s : State) (no : Nat) : DWord :=
  match no with
  | 0 => zext64 (statusWord s)
  | 1 => zext64 s.fcode
  | 2 => zext64 s.fcmd
  | 3 => s.farg
  | 4 => s.r
  | 5 => lenWord s.ob.length
  | 6 => zext64 s.rc.pos
  | 7 => zext64 s.rc.lim
  | 8 => zext64 s.rcend
  | 16 => lenWord s.e0.st.length
  | 17 => lenWord s.e1.st.length
  | 18 => lenWord s.e2.hyb.st.length
  | 19 => lenWord s.e3.hyb.st.length
  | 20 => lenWord s.e4.st.length
  | 21 => lenWord s.e5.st.length
  | 24 => zext64 s.d0.csr.pos
  | 25 => zext64 s.d1.csr.pos
  | 27 => zext64 s.d3.csr.pos
  | 28 => zext64 s.d4.csr.pos
  | 29 => zext64 s.d5.csr.pos
  | n => if 32 ≤ n then s.v.toList.getD (n - 32) 0 else 0

/-- A byte of OB, where it is defined (rules R25, R40). -/
def readOB (s : State) (offset : Nat) : Option Byte := s.ob[offset]?

end Sys2Proof.Machine
end

