-- ==== Sys2Proof/Machine/Port.lean ====
section
/-! DEFINITION. The command port: what the block does with one action of the host (rules R20, R40, R75, R345). -/

namespace Sys2Proof.Machine

/-- A presented command: its meaning, or `ILLEGAL_COMMAND` for a word that is no command (rules R100, R345). -/
def presentCommand (c : Command) (s : State) : Host.Outcome State Fault Refusal :=
  match decode c with
  | .ok i => exec i s
  | .error _ => illegalWord c s

/-- One action of the host, taken off the queue already. -/
def hostAct (a : HostAction) (s : State) : Host.Outcome State Fault Refusal :=
  match a with
  | .command c => presentCommand c s
  | .writeIB offset bytes => hostWrite s offset bytes
  | .reset => .next (hardwareReset s)

end Sys2Proof.Machine
end

