-- ==== Sys2Proof/Machine/Step.lean ====
section
/-! DEFINITION. One step: the host's next action, or an idle turn when there is none (rules R20, R374, R382). -/

namespace Sys2Proof.Machine

/-- One step of the block. With no action pending it waits and holds its state (rules R374, R382). -/
def step (s : State) : Host.Outcome State Fault Refusal :=
  match s.port with
  | [] => .next s
  | a :: rest => hostAct a (s.setPort rest)

/-- `s` with a command presented next: the block fetches nothing, a command comes from the host (rule R22). -/
def State.withFetchWord (s : State) (nbits w : Nat) : State :=
  s.setPort (.command (commandOfBits nbits w) :: s.port)

end Sys2Proof.Machine
end

