-- ==== Sys2Proof/Safety.lean ====
section
/-! DEFINITION. What counts as a good state and a good run of the block, in the terms the statements use: the
invariant of rule R38, which commands may raise which fault (rule R342), and which state a command may touch. -/

namespace Sys2Proof.Machine

/-! ### Running and faulted -/

/-- The block accepts commands: no fault since reset (rule R347). -/
abbrev State.Running (s : State) : Prop := s.fault = false

/-! ### The invariant of rule R38, with the facts it rests on -/

/-- A cursor within the attached stream (rule R38 item 1). -/
abbrev Cursor.Within (c : Cursor) (limit : Word) : Prop :=
  c.pos.toNat ≤ c.lim.toNat ∧ c.lim.toNat ≤ limit.toNat

/-- Rule R38 items 2, 3 and 7 for unit 0. -/
structure BoolEnc.Inv (p : Config.Params) (e : BoolEnc) : Prop where
  staged : e.st.length ≤ p.stcap
  count : e.bcnt ≤ 7
  unused : ∀ k, k < 8 - e.bcnt → e.bacc.getLsbD k = false
  finished : e.fin = true → e.bcnt = 0

/-- Rule R38 items 2, 4 and 7 for a hybrid unit. `zeroWidth` is the ground of rule R227: at width 0 nothing is
ever absorbed. -/
structure HybridEnc.Inv (p : Config.Params) (e : HybridEnc) : Prop where
  staged : e.st.length ≤ p.stcap
  width : e.wid ≤ Config.maxWidth32
  partialOct : e.oct.length ≤ 7
  exclusive : e.oct ≠ [] → e.rn = 0
  pending : e.pr.length = e.noct * e.wid
  pendingFits : e.pr.length ≤ p.prcap
  run : e.rn ≤ Config.maxRun
  octuplets : e.noct ≤ Config.maxRun
  zeroWidth : e.wid = 0 → e.oct = [] ∧ e.noct = 0
  finished : e.fin = true → e.rn = 0 ∧ e.oct = [] ∧ e.noct = 0

/-- Rule R38 items 2, 4, 5 and 7 for units 2 and 3; before the finish the engine is idle and nothing is staged
(rules R31, R240, R246). -/
structure SelfEnc.Inv (p : Config.Params) (u : SelfEnc) : Prop where
  engine : u.hyb.Inv p
  raw : u.raw.length ≤ p.rawcap
  wmax : u.wmax = maxOf (u.raw.map fun x => bitWidth x.toNat)
  idle : u.hyb.fin = false → u.hyb.st = [] ∧ u.hyb.rn = 0 ∧ u.hyb.oct = [] ∧ u.hyb.noct = 0

/-- Rule R38 items 2 and 6 for units 4 and 5. -/
structure DeltaEnc.Inv {w : Nat} (p : Config.Params) (e : DeltaEnc w) : Prop where
  staged : e.st.length ≤ p.stcap
  count : e.vb.length ≤ Config.bufValues
  finished : e.fin = true → e.vb = []

/-- Rule R38 item 1 and the field ranges of rule R34. -/
structure BoolDec.Inv (limit : Word) (d : BoolDec) : Prop where
  cursor : d.act = true → d.csr.Within limit
  count : d.brem ≤ 8

/-- Rule R38 item 1 and the field ranges of rule R35; what is still to be returned fits the width (rule R261). -/
structure HybridDec.Inv (limit : Word) (d : HybridDec) : Prop where
  cursor : d.act = true → d.csr.Within limit
  width : d.wid ≤ Config.maxWidth32
  rem : d.rem < 2 ^ 31
  val : d.val.toNat < 2 ^ d.wid
  opos : d.opos ≤ 8
  loaded : d.opos < 8 → d.oct.length = 8 ∧ ∀ x ∈ d.oct, x.toNat < 2 ^ d.wid

/-- Rule R38 items 1 and 8 and the field ranges of rule R36. `covered`: the deltas still owed to the current block
are in `MB` or have a width byte of their own, so no array is read outside its loaded part (rule R321). -/
structure DeltaDec.Inv {w : Nat} (limit : Word) (d : DeltaDec w) : Prop where
  cursor : d.act = true → d.csr.Within limit
  remv : d.remv ≤ Config.bufValues
  firstOwed : d.first = true → 1 ≤ d.remv
  mbpos : d.mbpos ≤ d.mb.length
  mbn : d.mb.length ≤ d.msz
  msz : d.msz ≤ Config.blkMax ∧ d.msz % 8 = 0
  widths : d.widths.length ≤ 16 ∧ ∀ y ∈ d.widths, y.toNat ≤ maxMiniWidth w
  mbidx : d.mbidx ≤ d.widths.length
  covered : d.remv - (if d.first then 1 else 0) ≤ (d.mb.length - d.mbpos) + (d.widths.length - d.mbidx) * d.msz

/-- The invariant of the whole block: rule R38, admissible capacities (rule R6), IB in canonical form within its
bounds (rule R26), and fault registers that are 0 until the first fault and then hold a code of rule R341. -/
structure State.Inv (s : State) : Prop where
  params : s.params.Admissible
  noFault : s.fault = false → s.fcode = 0 ∧ s.fcmd = 0 ∧ s.farg = 0
  faulted : s.fault = true → ∃ code, s.fcode = faultNumber code
  ob : s.ob.length ≤ s.params.obcap
  ibForm : s.ib.wf = true
  ibBound : ∀ c ∈ s.ib.cells, c.1 < s.params.ibcap
  mainCursor : s.rc.Within s.rcend
  attached : s.rcend.toNat ≤ s.params.ibcap
  e0 : s.e0.Inv s.params
  e1 : s.e1.Inv s.params
  e2 : s.e2.Inv s.params
  e3 : s.e3.Inv s.params
  e4 : s.e4.Inv s.params
  e5 : s.e5.Inv s.params
  d0 : s.d0.Inv s.rcend
  d1 : s.d1.Inv s.rcend
  d3 : s.d3.Inv s.rcend
  d4 : s.d4.Inv s.rcend
  d5 : s.d5.Inv s.rcend

/-! ### Which command may raise which fault (rule R342), and what it may write -/

/-- The faults of rule R342, beside `ILLEGAL_COMMAND` for a bad word. -/
def mayRaise : Instr → List FaultCode
  | .nop _ | .obclr _ | .rcunsl _ | .vset _ _ => []
  | .bitw32 _ | .bitw64 _ | .zze32 _ | .zze64 _ | .zzd32 _ | .zzd64 _ => []
  | .rst0 _ | .rst1 _ _ | .rst2 _ | .rst3 _ | .rst4 _ | .rst5 _ => []
  | .size0 _ | .size1 _ | .size2 _ | .size3 _ | .size4 _ | .size5 _ => []
  | .est0 _ | .est1 _ | .est2 _ | .est3 _ | .est4 _ | .est5 _ => []
  | .dinit0 _ | .dinit1 _ _ | .dinit4 _ | .dinit5 _ => []
  | .obpoke _ _ | .rcatt _ => [.badRange]
  | .rcslice _ => [.readPastEnd]
  | .wfix32 _ | .wfix64 _ | .wvar32 _ | .wvar64 _ | .wzz32 _ | .wzz64 _ => [.capacity]
  | .wpack32 _ _ _ | .wpack64 _ _ _ | .wpbool _ => [.capacity]
  | .rfix32 _ | .rfix64 _ | .rpack32 _ _ _ | .rpack64 _ _ _ | .rpbool _ => [.readPastEnd]
  | .rvar32 _ | .rvar64 _ | .rzz32 _ | .rzz64 _ => [.readPastEnd, .varintUnterminated, .varintExcess]
  | .enc0 _ | .enc1 _ | .enc2 _ | .enc3 _ | .enc4 _ | .enc5 _ => [.encodeAfterFinish, .capacity]
  | .fin0 _ | .fin1 _ | .fin2 _ | .fin3 _ | .fin4 _ | .fin5 _ => [.capacity]
  | .wto0 _ | .wto1 _ | .wto2 _ | .wto3 _ | .wto4 _ | .wto5 _ => [.capacity]
  | .dinit3 _ => [.readPastEnd, .badWidth]
  | .dec0 _ => [.decoderNotInitialised, .readPastEnd]
  | .dec1 _ | .dec3 _ => [.decoderNotInitialised, .readPastEnd, .varintUnterminated, .varintExcess]
  | .dec4 _ | .dec5 _ =>
    [.decoderNotInitialised, .readPastEnd, .varintUnterminated, .varintExcess, .badBlockHeader, .badWidth]

/-! ### Legal command words (rules R100, R102, R104, R105) -/

/-- The 77 opcodes of rule R104. -/
def legalOpcodes : List Nat :=
  [0x00, 0x01, 0x02, 0x03, 0x04, 0x05, 0x06, 0x10, 0x11, 0x12, 0x13, 0x14, 0x15] ++
    [0x20, 0x21, 0x22, 0x23, 0x24, 0x25, 0x26, 0x27, 0x28, 0x30, 0x31, 0x32, 0x33, 0x34, 0x35, 0x36, 0x37, 0x38] ++
    [0x40, 0x41, 0x42, 0x43, 0x44, 0x45, 0x50, 0x51, 0x52, 0x53, 0x54, 0x55, 0x60, 0x61, 0x62, 0x63, 0x64, 0x65] ++
    [0x70, 0x71, 0x72, 0x73, 0x74, 0x75, 0x80, 0x81, 0x82, 0x83, 0x84, 0x85, 0x90, 0x91, 0x92, 0x93, 0x94, 0x95] ++
    [0xA0, 0xA1, 0xA3, 0xA4, 0xA5, 0xB0, 0xB1, 0xB3, 0xB4, 0xB5]

/-- The largest legal `WIDTH` of an opcode, 0 where the field must be 0 (rule R102). -/
def widthLimit (opc : Nat) : Nat :=
  if opc = 0x26 ∨ opc = 0x36 ∨ opc = 0x61 ∨ opc = 0xA1 then 32 else if opc = 0x27 ∨ opc = 0x37 then 64 else 0

/-- The largest legal `IMM8` of an opcode, 0 where the field must be 0 (rule R102). -/
def imm8Limit (opc : Nat) : Nat :=
  if opc = 0x26 ∨ opc = 0x27 ∨ opc = 0x36 ∨ opc = 0x37 then 128 else if opc = 0x06 then 127
  else if opc = 0x02 then 255 else 0

/-- The command word is legal (rule R105), its four fields read off the number it is (rule R100). -/
abbrev LegalWord (cw : Word) : Prop :=
  cw.toNat % 2 ^ 8 = 0 ∧ cw.toNat / 2 ^ 24 ∈ legalOpcodes ∧
    cw.toNat / 2 ^ 16 % 2 ^ 8 ≤ widthLimit (cw.toNat / 2 ^ 24) ∧
    cw.toNat / 2 ^ 8 % 2 ^ 8 ≤ imm8Limit (cw.toNat / 2 ^ 24)

/-- The opcode of an instruction as a number: its high digit is the family, its low digit the member or unit
(rule R103). -/
abbrev opcNo (i : Instr) : Nat := (opcOf i).toNat

/-! ### Runs of commands, reset values, and shapes of results the statements use -/

/-- The state a command answers, when it answers one. -/
def nextOf (o : Host.Outcome State Fault Refusal) : Option State :=
  match o with
  | .next s => some s
  | .fault _ => none
  | .refused _ => none

/-- Commands run one after the other, each to its end without a fault: the value of `R` after each, and the state
after the last; `none` as soon as one does not complete. -/
def runCommands : List Instr → State → Option (List DWord × State)
  | [], s => some ([], s)
  | i :: is, s =>
    match exec i s with
    | .next t => if t.fault then none else (runCommands is t).map fun x => (t.r :: x.1, x.2)
    | .fault _ => none
    | .refused _ => none

/-- The values rule R39 gives for hardware reset. It gives none for `R`, `V` and the contents of memories. -/
structure ResetValues (t : State) : Prop where
  faults : t.fault = false ∧ t.fcode = 0 ∧ t.fcmd = 0 ∧ t.farg = 0
  buffers : t.ob.length = 0 ∧ t.rc.pos = 0 ∧ t.rc.lim = 0 ∧ t.rcend = 0
  e0 : t.e0.st.length = 0 ∧ t.e0.fin = false ∧ t.e0.bacc = 0 ∧ t.e0.bcnt = 0
  e1 : t.e1.st.length = 0 ∧ t.e1.fin = false ∧ t.e1.wid = 0 ∧ t.e1.rv = 0 ∧ t.e1.rn = 0 ∧ t.e1.oct.length = 0 ∧
    t.e1.pr.length = 0 ∧ t.e1.noct = 0
  e2 : t.e2.hyb.st.length = 0 ∧ t.e2.hyb.fin = false ∧ t.e2.hyb.wid = 0 ∧ t.e2.hyb.rv = 0 ∧ t.e2.hyb.rn = 0 ∧
    t.e2.hyb.oct.length = 0 ∧ t.e2.hyb.pr.length = 0 ∧ t.e2.hyb.noct = 0 ∧ t.e2.raw.length = 0 ∧ t.e2.wmax = 0
  e3 : t.e3.hyb.st.length = 0 ∧ t.e3.hyb.fin = false ∧ t.e3.hyb.wid = 0 ∧ t.e3.hyb.rv = 0 ∧ t.e3.hyb.rn = 0 ∧
    t.e3.hyb.oct.length = 0 ∧ t.e3.hyb.pr.length = 0 ∧ t.e3.hyb.noct = 0 ∧ t.e3.raw.length = 0 ∧ t.e3.wmax = 0
  e4 : t.e4.st.length = 0 ∧ t.e4.fin = false ∧ t.e4.vb.length = 0
  e5 : t.e5.st.length = 0 ∧ t.e5.fin = false ∧ t.e5.vb.length = 0
  d0 : t.d0.act = false ∧ t.d0.csr = ⟨0, 0⟩ ∧ t.d0.byte = 0 ∧ t.d0.brem = 0
  d1 : t.d1.act = false ∧ t.d1.csr = ⟨0, 0⟩ ∧ t.d1.wid = 0 ∧ t.d1.mode = .idle ∧ t.d1.rem = 0 ∧ t.d1.val = 0 ∧
    t.d1.opos = 8
  d3 : t.d3.act = false ∧ t.d3.csr = ⟨0, 0⟩ ∧ t.d3.wid = 0 ∧ t.d3.mode = .idle ∧ t.d3.rem = 0 ∧ t.d3.val = 0 ∧
    t.d3.opos = 8
  d4 : t.d4.act = false ∧ t.d4.csr = ⟨0, 0⟩ ∧ t.d4.remv = 0 ∧ t.d4.first = false ∧ t.d4.cur = 0 ∧ t.d4.mind = 0 ∧
    t.d4.msz = 0 ∧ t.d4.mb.length = 0 ∧ t.d4.mbpos = 0 ∧ t.d4.mbidx = 0
  d5 : t.d5.act = false ∧ t.d5.csr = ⟨0, 0⟩ ∧ t.d5.remv = 0 ∧ t.d5.first = false ∧ t.d5.cur = 0 ∧ t.d5.mind = 0 ∧
    t.d5.msz = 0 ∧ t.d5.mb.length = 0 ∧ t.d5.mbpos = 0 ∧ t.d5.mbidx = 0

/-- `i` appends exactly the bytes `b` to OB when they fit, changing nothing else, and raises `CAPACITY` when they do
not (rules R9, R160). -/
abbrev AppendsToOB (i : Instr) (s : State) (b : Bytes) : Prop :=
  (s.ob.length + b.length ≤ s.params.obcap → exec i s = .next { s with ob := s.ob ++ b }) ∧
    (s.params.obcap < s.ob.length + b.length → exec i s = .next (enterFault .capacity (encode i) s))

/-- A cursor moved over `n` bytes (rule R9: `Take`). -/
abbrev Cursor.advance (c : Cursor) (n : Nat) : Cursor := ⟨BitVec.ofNat 32 (c.pos.toNat + n), c.lim⟩

/-- The number that `n` bytes of IB from `a` on hold in 7-bit groups, lowest group first (rule R63). -/
def groupSum (m : Memory) (a : Nat) : Nat → Nat
  | 0 => 0
  | n + 1 => (m.read a).toNat % 128 + 128 * groupSum m (a + 1) n

/-- `n` bytes of IB from `a` on form one varint: the continuation bit is set in all but the last (rule R63). -/
abbrev VarintAt (m : Memory) (a n : Nat) : Prop :=
  1 ≤ n ∧ (∀ k, k + 1 < n → 128 ≤ (m.read (a + k)).toNat) ∧ (m.read (a + (n - 1))).toNat < 128

/-- The integer a zigzag number stands for (rule R14, closed form). -/
def unzigzagInt (u : Nat) : Int := if u % 2 = 0 then (u / 2 : Nat) else -((u / 2 : Nat) + 1)

/-- The octuplet unpacked from `w` bytes of IB at `a` (rules R17, R261). -/
abbrev octupletAt (m : Memory) (a w : Nat) : List Word := (unpack (m.readBytes a w) w 8).map (BitVec.ofNat 32)

/-- The value of an RLE run, packed in `ceil(w/8)` bytes of IB at `a` (rules R96, R261). -/
abbrev runValueAt (m : Memory) (a w : Nat) : Word := BitVec.ofNat 32 (leVal (m.readBytes a (bytesFor w)) % 2 ^ w)

/-- No value is left in the run a hybrid decoder is in: the next thing to read is a header (rule R261). -/
abbrev HybridDec.AtHeader (d : HybridDec) : Prop :=
  (d.mode = .rle → d.rem = 0) ∧ (d.mode = .packed → 8 ≤ d.opos ∧ d.rem = 0)

/-- The decoder `d` yields `v` and becomes `d'`, by one of the branches of rule R261: inside an RLE run; inside a
loaded octuplet; loading the run's next octuplet; reading the header of a bit-packed run; reading that of an RLE
run. A header `h` has been read when the cursor stands at `c`. -/
abbrev HybridYields (m : Memory) (d : HybridDec) (v : Word) (d' : HybridDec) : Prop :=
  (d.mode = .rle ∧ 0 < d.rem ∧ v = d.val ∧ d' = { d with rem := d.rem - 1 }) ∨
  (d.mode = .packed ∧ d.opos < 8 ∧ v = d.oct.getD d.opos 0 ∧ d' = { d with opos := d.opos + 1 }) ∨
  (d.mode = .packed ∧ 8 ≤ d.opos ∧ 0 < d.rem ∧ d.csr.pos.toNat + d.wid ≤ d.csr.lim.toNat ∧
    v = (octupletAt m d.csr.pos.toNat d.wid).getD 0 0 ∧
    d' = { d with csr := d.csr.advance d.wid, oct := octupletAt m d.csr.pos.toNat d.wid, opos := 1,
                  rem := d.rem - 1 }) ∨
  (d.AtHeader ∧ ∃ h c, readVarint 32 m d.csr = .ok (h, c) ∧ 0 < h.toNat / 2 ∧ h.toNat % 2 = 1 ∧
    c.pos.toNat + d.wid ≤ c.lim.toNat ∧ v = (octupletAt m c.pos.toNat d.wid).getD 0 0 ∧
    d' = { d with csr := c.advance d.wid, mode := .packed, oct := octupletAt m c.pos.toNat d.wid, opos := 1,
                  rem := h.toNat / 2 - 1 }) ∨
  (d.AtHeader ∧ ∃ h c, readVarint 32 m d.csr = .ok (h, c) ∧ 0 < h.toNat / 2 ∧ h.toNat % 2 = 0 ∧
    c.pos.toNat + bytesFor d.wid ≤ c.lim.toNat ∧ v = runValueAt m c.pos.toNat d.wid ∧
    d' = { d with csr := c.advance (bytesFor d.wid), mode := .rle, val := runValueAt m c.pos.toNat d.wid,
                  rem := h.toNat / 2 - 1 })

end Sys2Proof.Machine
end

