-- ==== Sys2Proof/Certificates/Slice0/Obligations.lean ====
section
/-! DEFINITION. The statements for the provers, each with the rule of the spec it formalises. Where a statement gives
the next state as a whole record, everything it does not name is unchanged: its frame is part of the equation. -/

open Sys2Proof Sys2Proof.Machine

/-! ### Encodings (rules R100 to R109) -/

/-- Decoding the encoding of a well-formed command gives the command back, with every operand (rules R100, R108). -/
def Obligations.DecodeOfEncode : Prop :=
  ∀ i : Instr, i.wf = true → decode (encode i) = .ok i

/-- A command has one encoding: what decodes is well formed and encodes to the very word and operand it came from. -/
def Obligations.EncodeOfDecode : Prop :=
  ∀ (c : Command) (i : Instr), decode c = .ok i → i.wf = true ∧ encode i = c

/-- Rules R102 and R105: the legal command words are exactly those of the table within their field ranges, and any
other word raises `ILLEGAL_COMMAND` and changes nothing else. -/
def Obligations.IllegalWordsRaise : Prop :=
  ∀ (c : Command) (s : State),
    ((∃ i, decode c = .ok i) ↔ LegalWord c.cw) ∧
    (s.Running → ¬LegalWord c.cw →
      presentCommand c s = .next { s with fault := true, fcode := 0x30, fcmd := c.cw, farg := c.arg })

/-- One word of each opcode family, written out from rule R108, decodes to its command. -/
def Obligations.FamilyWordsDecode : Prop :=
  decodeTableWord 32 0x02007F00 = some (.obpoke 0x7F 0) ∧
  decodeTableWord 32 0x11000000 = some (.bitw64 0) ∧
  decodeTableWord 32 0x26030800 = some (.wpack32 3 8 0) ∧
  decodeTableWord 32 0x37214000 = some (.rpack64 33 64 0) ∧
  decodeTableWord 32 0x45000000 = some (.enc5 0) ∧
  decodeTableWord 32 0x50000000 = some (.fin0 0) ∧
  decodeTableWord 32 0x61200000 = some (.rst1 32 0) ∧
  decodeTableWord 32 0x72000000 = some (.size2 0) ∧
  decodeTableWord 32 0x83000000 = some (.est3 0) ∧
  decodeTableWord 32 0x94000000 = some (.wto4 0) ∧
  decodeTableWord 32 0xA1030000 = some (.dinit1 3 0) ∧
  decodeTableWord 32 0xB3000000 = some (.dec3 0) ∧
  decodeTableWord 32 0xA2000000 = none

/-! ### Steps, reset and faults (rules R39, R40, R342 to R348, R374, R380 to R382) -/

/-- A step takes the host's next command and runs what it decodes to; it adds nothing but the removal of the command
from the queue. A word that is no command raises `ILLEGAL_COMMAND` (rules R105, R345), and a block in the fault state
refuses every word (rule R347). With no action pending the block is idle and holds its state (rule R374; the queue is
the model's own, log entry 5). -/
def Obligations.StepRunsDecodedInstruction : Prop :=
  (∀ s : State, s.port = [] → step s = .next s) ∧
  (∀ (s : State) (c : Command) (rest : List HostAction), s.port = .command c :: rest →
    (s.Running → ¬LegalWord c.cw → step s =
      .next { s with port := rest, fault := true, fcode := 0x30, fcmd := c.cw, farg := c.arg }) ∧
    (s.fault = true → step s = .next { s with port := rest })) ∧
  ∀ (s : State) (c : Command) (rest : List HostAction) (i : Instr),
    s.port = .command c :: rest → decode c = .ok i →
      i.wf = true ∧ step s = exec i { s with port := rest } ∧
      ∀ t, step s = .next t → t.port = rest ∧ t.params = s.params

/-- A host write within IB changes those bytes of IB and nothing else (rule R40). One that reaches an offset at or
beyond `IBCAP`, which does not exist, stops the model with a fault of its own name (the model's choice, log
entry 8). -/
def Obligations.HostWriteChangesOnlyIB : Prop :=
  ∀ (s : State) (offset : Nat) (bytes : Bytes) (rest : List HostAction),
    s.port = .writeIB offset bytes :: rest → s.ib.wf = true →
      (offset + bytes.length ≤ s.params.ibcap →
        ∃ m : Memory, step s = .next { s with port := rest, ib := m } ∧ m.wf = true ∧
          ∀ k, m.read k =
            if offset ≤ k ∧ k < offset + bytes.length then bytes.getD (k - offset) 0 else s.ib.read k) ∧
      (bytes ≠ [] → s.params.ibcap < offset + bytes.length →
        step s = .fault (.ibAddressAbsent (max offset s.params.ibcap)))

/-- Rule R39: hardware reset gives every register, counter and length its reset value, from whatever state. -/
def Obligations.HardwareResetGivesResetValues : Prop :=
  ∀ (s : State) (rest : List HostAction), s.port = .reset :: rest →
    ∃ t, step s = .next t ∧ ResetValues t ∧ t.params = s.params ∧ t.port = rest

/-- The state after reset meets the invariant of rule R38, for every choice of capacities rule R6 admits. -/
def Obligations.ResetMeetsInvariant : Prop :=
  State.reset.Inv ∧ ResetValues State.reset ∧ ∀ p : Config.Params, p.Admissible → (State.resetWith p).Inv

/-- Rule R38, as an invariant of every step from every state that meets it. -/
def Obligations.EveryStepKeepsInvariant : Prop :=
  ∀ s t : State, s.Inv → step s = .next t → t.Inv

/-- Rule R347: while `FAULT = 1` every command, legal or not, is refused: it completes and changes no state. -/
def Obligations.FaultedBlockRefusesEveryCommand : Prop :=
  ∀ s : State, s.fault = true →
    (∀ c : Command, presentCommand c s = .next s) ∧ ∀ i : Instr, exec i s = .next s

/-- Rule R348: only hardware reset clears `FAULT`. -/
def Obligations.OnlyResetClearsFault : Prop :=
  ∀ s t : State, step s = .next t → s.fault = true → t.fault = false → ∃ rest, s.port = .reset :: rest

/-- Rules R10 and R346: a command either completes without a fault, leaving the fault registers alone, or ends with
`FAULT`, `FCODE`, `FCMD` and `FARG` recorded and every other register, buffer and unit as before it. No command
stops the machine. -/
def Obligations.FaultsArePrecise : Prop :=
  ∀ (c : Command) (s : State), s.Running → ∃ t, presentCommand c s = .next t ∧
    ((t.Running ∧ t.fcode = s.fcode ∧ t.fcmd = s.fcmd ∧ t.farg = s.farg) ∨
      ∃ code : FaultCode, t = { s with fault := true, fcode := faultNumber code, fcmd := c.cw, farg := c.arg })

/-- Rule R342: which fault each command can raise; every exec ends with a next state, and a legal command raises only
the faults its row lists. -/
def Obligations.OnlyListedFaultsAreRaised : Prop :=
  ∀ (i : Instr) (s : State), i.wf = true → s.Running →
    ∃ t, exec i s = .next t ∧ (t.fault = true → ∃ code ∈ mayRaise i, t.fcode = faultNumber code)

/-! ### Which command writes and reads which state (rules R21, R23, R26, R60, R201) -/

/-- The block never writes IB: after any command every address of IB reads as before (rules R26, R60). Nor does a
command touch the capacities or what the host does next. -/
def Obligations.CommandsNeverWriteIB : Prop :=
  ∀ (i : Instr) (s t : State), exec i s = .next t →
    (∀ k, t.ib.read k = s.ib.read k) ∧ t.ib = s.ib ∧ t.params = s.params ∧ t.port = s.port

/-- Rule R21: the commands that write `R` and `V`, with the lanes they leave alone; no command reads `R`, and only
`WPACK32` and `WPACK64` read `V`, of it the lanes below their count. -/
def Obligations.ResultRegistersWrittenAndRead : Prop :=
  ∀ (i : Instr) (s t : State), exec i s = .next t →
    (t.r ≠ s.r → opcNo i / 16 = 1 ∨ (opcNo i / 16 = 3 ∧ opcNo i ≠ 0x36 ∧ opcNo i ≠ 0x37) ∨ opcNo i / 16 = 7 ∨
      opcNo i / 16 = 8 ∨ opcNo i / 16 = 11) ∧
    (∀ (k : Nat) (_ : k < 128), t.v[k] ≠ s.v[k] →
      (opcNo i = 0x06 ∧ k = (imm8Of i).toNat) ∨ ((opcNo i = 0x36 ∨ opcNo i = 0x37) ∧ k < (imm8Of i).toNat)) ∧
    (∀ x : DWord, ∃ u, exec i { s with r := x } = .next u ∧ { u with r := t.r } = t ∧ (t.r ≠ s.r → u.r = t.r)) ∧
    (∀ y : Vector DWord 128,
      (opcNo i = 0x26 ∨ opcNo i = 0x27 → ∀ (k : Nat) (_ : k < 128), k < (imm8Of i).toNat → y[k] = s.v[k]) →
      ∃ u, exec i { s with v := y } = .next u ∧ { u with v := t.v } = t)

/-- Rule R23: `Eu.FIN` is set only by `FIN.u` and `WTO.u` and cleared only by `RST.u`; `Du.ACT` is set only by
`DINIT.u` and cleared only by `RCATT`. -/
def Obligations.FlagsChangeOnlyAsListed : Prop :=
  ∀ (i : Instr) (s t : State) (u : Nat), exec i s = .next t →
    (finFlag s u = false → finFlag t u = true → opcNo i = 0x50 + u ∨ opcNo i = 0x90 + u) ∧
    (finFlag s u = true → finFlag t u = false → opcNo i = 0x60 + u) ∧
    (actFlag s u = false → actFlag t u = true → opcNo i = 0xA0 + u) ∧
    (actFlag s u = true → actFlag t u = false → opcNo i = 0x03)

/-- Who writes each unit, OB and the main cursor (rules R60, R180, R201): an encoder unit changes only by its own
`ENC`, `FIN`, `RST`, `WTO`; a decoder unit only by its own `DINIT`, `DEC`, or in `ACT` by `RCATT`. -/
def Obligations.UnitsChangeOnlyByTheirOwnCommands : Prop :=
  ∀ (i : Instr) (s t : State), exec i s = .next t →
    (t.e0 ≠ s.e0 → opcNo i ∈ [0x40, 0x50, 0x60, 0x90]) ∧ (t.e1 ≠ s.e1 → opcNo i ∈ [0x41, 0x51, 0x61, 0x91]) ∧
    (t.e2 ≠ s.e2 → opcNo i ∈ [0x42, 0x52, 0x62, 0x92]) ∧ (t.e3 ≠ s.e3 → opcNo i ∈ [0x43, 0x53, 0x63, 0x93]) ∧
    (t.e4 ≠ s.e4 → opcNo i ∈ [0x44, 0x54, 0x64, 0x94]) ∧ (t.e5 ≠ s.e5 → opcNo i ∈ [0x45, 0x55, 0x65, 0x95]) ∧
    (t.d0 ≠ s.d0 → opcNo i ∈ [0xA0, 0xB0] ∨ (opcNo i = 0x03 ∧ t.d0 = { s.d0 with act := false })) ∧
    (t.d1 ≠ s.d1 → opcNo i ∈ [0xA1, 0xB1] ∨ (opcNo i = 0x03 ∧ t.d1 = { s.d1 with act := false })) ∧
    (t.d3 ≠ s.d3 → opcNo i ∈ [0xA3, 0xB3] ∨ (opcNo i = 0x03 ∧ t.d3 = { s.d3 with act := false })) ∧
    (t.d4 ≠ s.d4 → opcNo i ∈ [0xA4, 0xB4] ∨ (opcNo i = 0x03 ∧ t.d4 = { s.d4 with act := false })) ∧
    (t.d5 ≠ s.d5 → opcNo i ∈ [0xA5, 0xB5] ∨ (opcNo i = 0x03 ∧ t.d5 = { s.d5 with act := false })) ∧
    (t.ob ≠ s.ob → opcNo i ∈ [0x01, 0x02] ∨ opcNo i / 16 = 2 ∨ opcNo i / 16 = 9) ∧
    (t.rc ≠ s.rc → opcNo i ∈ [0x03, 0x04, 0x05] ∨ opcNo i / 16 = 3) ∧ (t.rcend ≠ s.rcend → opcNo i = 0x03)

/-- Appending keeps what is written: a write primitive or a `WTO.u` leaves every byte of OB below `OBLEN` as it was
and never shortens OB (rules R9, R160, R201). -/
def Obligations.AppendKeepsEarlierBytes : Prop :=
  ∀ (i : Instr) (s t : State), opcNo i / 16 = 2 ∨ opcNo i / 16 = 9 → exec i s = .next t →
    s.ob.length ≤ t.ob.length ∧ ∀ k, k < s.ob.length → readOB t k = readOB s k

/-! ### The register read port (rule R24) -/

/-- The register read port: each register under its number, zero-extended, the bits of `STATUS` in their places, and
0 under a number that is not in the table. A length reads whole when it fits 32 bits, as rule R38 has it; that
of a longer one, outside the invariant, the low 32 bits read is the model's own inference, log entry 11. Where the
table gives a reset value it is 0. -/
def Obligations.RegisterReadPort : Prop :=
  ∀ s : State,
    (∀ k, (readRegister s 0).getLsbD k =
      if k = 0 then s.fault else if 8 ≤ k ∧ k ≤ 13 then finFlag s (k - 8)
      else if 16 ≤ k ∧ k ≤ 21 then actFlag s (k - 16) else false) ∧
    (readRegister s 1).toNat = s.fcode.toNat ∧ (readRegister s 2).toNat = s.fcmd.toNat ∧
    readRegister s 3 = s.farg ∧ readRegister s 4 = s.r ∧
    (readRegister s 5).toNat = s.ob.length % 2 ^ 32 ∧ (readRegister s 6).toNat = s.rc.pos.toNat ∧
    (readRegister s 7).toNat = s.rc.lim.toNat ∧ (readRegister s 8).toNat = s.rcend.toNat ∧
    (readRegister s 16).toNat = s.e0.st.length % 2 ^ 32 ∧ (readRegister s 17).toNat = s.e1.st.length % 2 ^ 32 ∧
    (readRegister s 18).toNat = s.e2.hyb.st.length % 2 ^ 32 ∧
    (readRegister s 19).toNat = s.e3.hyb.st.length % 2 ^ 32 ∧
    (readRegister s 20).toNat = s.e4.st.length % 2 ^ 32 ∧ (readRegister s 21).toNat = s.e5.st.length % 2 ^ 32 ∧
    (readRegister s 24).toNat = s.d0.csr.pos.toNat ∧ (readRegister s 25).toNat = s.d1.csr.pos.toNat ∧
    (readRegister s 27).toNat = s.d3.csr.pos.toNat ∧ (readRegister s 28).toNat = s.d4.csr.pos.toNat ∧
    (readRegister s 29).toNat = s.d5.csr.pos.toNat ∧
    (∀ (k : Nat) (_ : k < 128), readRegister s (32 + k) = s.v[k]) ∧
    (∀ n, n ∈ [9, 10, 11, 12, 13, 14, 15, 22, 23, 26, 30, 31] ∨ 160 ≤ n → readRegister s n = 0) ∧
    (ResetValues s → ∀ n, n < 32 → n ≠ 4 → readRegister s n = 0)

/-! ### The codec functions (rules R13 to R18) -/

/-- The zigzag mapping and its inverse by their closed forms, which undo each other, and unpacking, which undoes
packing but for what a value has above its width. These are inferences the spec marks as its own: "Closed form" in rule
R13, "for every sN v" in rule R14, "`unpack(pack(vals, w), w, |vals|)[i]`" in rule R17. -/
def Obligations.ClosedFormsAndInverses : Prop :=
  (∀ v : BitVec 32, ((zigzag v).toNat : Int) = if 0 ≤ v.toInt then 2 * v.toInt else -2 * v.toInt - 1) ∧
  (∀ v : BitVec 64, ((zigzag v).toNat : Int) = if 0 ≤ v.toInt then 2 * v.toInt else -2 * v.toInt - 1) ∧
  (∀ u : BitVec 32, (unzigzag u).toInt = unzigzagInt u.toNat) ∧
  (∀ u : BitVec 64, (unzigzag u).toInt = unzigzagInt u.toNat) ∧
  (∀ v : BitVec 32, unzigzag (zigzag v) = v ∧ zigzag (unzigzag v) = v) ∧
  (∀ v : BitVec 64, unzigzag (zigzag v) = v ∧ zigzag (unzigzag v) = v) ∧
  ∀ (vals : List Nat) (w : Nat), unpack (pack vals w) w vals.length = vals.map (· % 2 ^ w)

/-- Rule R92: byte `k` of a varint holds value bits `7k+6` to `7k` under a continuation bit that is set in every byte
but the last; there are as few bytes as the value needs, one for 0, at most 5 for a u32 and 10 for a u64. That `varlen`
gives this number of bytes is no part of rule R92: it is an inference the spec marks as its own under rule R15. -/
def Obligations.VarintBytes : Prop :=
  ∀ u : Nat,
    1 ≤ (varint u).length ∧ u < 128 ^ (varint u).length ∧
    (2 ≤ (varint u).length → 128 ^ ((varint u).length - 1) ≤ u) ∧
    (∀ k, k < (varint u).length →
      ((varint u).getD k 0).toNat = u / 128 ^ k % 128 + (if k + 1 < (varint u).length then 128 else 0)) ∧
    (u < 2 ^ 32 → (varint u).length ≤ 5) ∧ (u < 2 ^ 64 → (varint u).length ≤ 10) ∧ varlen u = (varint u).length

/-- Rules R16 and R17: packed values are one little-endian bit stream, value `i` in stream bits `i*w` to `i*w+w-1`
with its own bit 0 first, in `ceil(n*w/8)` bytes whose unused bits are 0; unpacking reads value `i` from those same
bits. -/
def Obligations.PackedBitLayout : Prop :=
  ∀ (vals : List Nat) (w : Nat),
    (pack vals w).length = (vals.length * w + 7) / 8 ∧
    (∀ k, k < 8 * (pack vals w).length →
      ((pack vals w).getD (k / 8) 0).getLsbD (k % 8) =
        (decide (k < vals.length * w) && (vals.getD (k / w) 0).testBit (k % w))) ∧
    ∀ (b : Bytes) (n i : Nat), i < n → (unpack b w n).getD i 0 = leVal b / 2 ^ (i * w) % 2 ^ w

/-! ### Buffer and register management, pure functions (rules R131 to R143) -/

/-- Rules R131, R132, R136, R137: `NOP` changes nothing, `OBCLR` empties OB, `RCUNSL` sets `RCLIM` to `RCEND`, and
`VSET` writes one lane and no other. -/
def Obligations.ManagementCommandResults : Prop :=
  ∀ (arg : DWord) (s : State), s.Running →
    exec (.nop arg) s = .next s ∧
    exec (.obclr arg) s = .next { s with ob := [] } ∧
    exec (.rcunsl arg) s = .next { s with rc := ⟨s.rc.pos, s.rcend⟩ } ∧
    ∀ lane : Byte, lane.toNat ≤ 127 → ∃ v : Vector DWord 128,
      exec (.vset lane arg) s = .next { s with v := v } ∧
      ∀ (k : Nat) (_ : k < 128), v[k] = if k = lane.toNat then arg else s.v[k]

/-- Rule R133: `OBPOKE` overwrites the byte at an offset below `OBLEN`, that byte alone; at any other offset it raises
`BAD_RANGE`. -/
def Obligations.ObpokeResult : Prop :=
  ∀ (byte : Byte) (arg : DWord) (s : State), s.Running →
    (arg.toNat % 2 ^ 32 < s.ob.length → ∃ b : Bytes, exec (.obpoke byte arg) s = .next { s with ob := b } ∧
      b.length = s.ob.length ∧
      ∀ k, readOB { s with ob := b } k = if k = arg.toNat % 2 ^ 32 then some byte else readOB s k) ∧
    (s.ob.length ≤ arg.toNat % 2 ^ 32 →
      exec (.obpoke byte arg) s = .next (enterFault .badRange (encode (.obpoke byte arg)) s))

/-- Rule R134: `RCATT n` sets the main cursor to the start of the first `n` bytes of IB and drops every decoder,
leaving the decoders' other fields as they were; an `n` above `IBCAP` raises `BAD_RANGE`. -/
def Obligations.RcattResult : Prop :=
  ∀ (arg : DWord) (s : State), s.Running →
    (arg.toNat % 2 ^ 32 ≤ s.params.ibcap →
      exec (.rcatt arg) s = .next { s with
        rc := ⟨0, arg.setWidth 32⟩, rcend := arg.setWidth 32,
        d0 := { s.d0 with act := false }, d1 := { s.d1 with act := false }, d3 := { s.d3 with act := false },
        d4 := { s.d4 with act := false }, d5 := { s.d5 with act := false } }) ∧
    (s.params.ibcap < arg.toNat % 2 ^ 32 →
      exec (.rcatt arg) s = .next (enterFault .badRange (encode (.rcatt arg)) s))

/-- Rule R135: `RCSLICE n` narrows the main cursor to the next `n` bytes, the sum taken exactly; past `RCLIM` it
raises `READ_PAST_END`. -/
def Obligations.RcsliceResult : Prop :=
  ∀ (arg : DWord) (s : State), s.Running →
    (s.rc.pos.toNat + arg.toNat % 2 ^ 32 ≤ s.rc.lim.toNat → ∃ l : Word,
      exec (.rcslice arg) s = .next { s with rc := ⟨s.rc.pos, l⟩ } ∧
      l.toNat = s.rc.pos.toNat + arg.toNat % 2 ^ 32) ∧
    (s.rc.lim.toNat < s.rc.pos.toNat + arg.toNat % 2 ^ 32 →
      exec (.rcslice arg) s = .next (enterFault .readPastEnd (encode (.rcslice arg)) s))

/-- Rules R138 to R143: the pure functions write `R` and nothing else. The bit width `n` of `x` is 0 for 0, else the
one `n` with `2^(n-1) ≤ x < 2^n`; the 32-bit forms ignore the upper half of the operand. -/
def Obligations.PureFunctionResults : Prop :=
  ∀ (arg : DWord) (s : State), s.Running →
    let x32 := arg.toNat % 2 ^ 32
    let i32 := (arg.setWidth 32).toInt
    (∃ n : Nat, exec (.bitw32 arg) s = .next { s with r := BitVec.ofNat 64 n } ∧
      n ≤ 32 ∧ x32 < 2 ^ n ∧ (0 < n → 2 ^ (n - 1) ≤ x32)) ∧
    (∃ n : Nat, exec (.bitw64 arg) s = .next { s with r := BitVec.ofNat 64 n } ∧
      n ≤ 64 ∧ arg.toNat < 2 ^ n ∧ (0 < n → 2 ^ (n - 1) ≤ arg.toNat)) ∧
    exec (.zze32 arg) s = .next { s with r := BitVec.ofInt 64 (if 0 ≤ i32 then 2 * i32 else -2 * i32 - 1) } ∧
    exec (.zze64 arg) s =
      .next { s with r := BitVec.ofInt 64 (if 0 ≤ arg.toInt then 2 * arg.toInt else -2 * arg.toInt - 1) } ∧
    exec (.zzd32 arg) s = .next { s with r := BitVec.ofInt 64 (unzigzagInt x32) } ∧
    exec (.zzd64 arg) s = .next { s with r := BitVec.ofInt 64 (unzigzagInt arg.toNat) }

/-! ### Write primitives (rules R160 to R169) -/

/-- Rules R161 and R162: `WFIX32` and `WFIX64` append the operand's low 4 or 8 bytes, least significant first, or
raise `CAPACITY` when they do not fit. -/
def Obligations.FixedWidthWriteResults : Prop :=
  ∀ (arg : DWord) (s : State), s.Running →
    (∃ b : Bytes, AppendsToOB (.wfix32 arg) s b ∧ b.length = 4 ∧
      ∀ k, k < 4 → (b.getD k 0).toNat = arg.toNat / 256 ^ k % 256) ∧
    ∃ b : Bytes, AppendsToOB (.wfix64 arg) s b ∧ b.length = 8 ∧
      ∀ k, k < 8 → (b.getD k 0).toNat = arg.toNat / 256 ^ k % 256

/-- Rules R163 to R166: the varint writes append the varint of the unsigned operand or of the zigzag number of the
signed one, at its true length, or raise `CAPACITY`. -/
def Obligations.VarintWriteResults : Prop :=
  ∀ (arg : DWord) (s : State), s.Running →
    let i32 := (arg.setWidth 32).toInt
    AppendsToOB (.wvar32 arg) s (varint (arg.toNat % 2 ^ 32)) ∧
    AppendsToOB (.wvar64 arg) s (varint arg.toNat) ∧
    AppendsToOB (.wzz32 arg) s (varint (if 0 ≤ i32 then 2 * i32 else -2 * i32 - 1).toNat) ∧
    AppendsToOB (.wzz64 arg) s
      (varint (if 0 ≤ arg.toInt then 2 * arg.toInt else -2 * arg.toInt - 1).toNat)

/-- Rules R167 and R168: `WPACK32` and `WPACK64` append lanes 0 to count-1 packed at the given width (of a lane,
`WPACK32` uses bits 31:0), in `ceil(count*w/8)` bytes, or raise `CAPACITY`. -/
def Obligations.PackWriteResults : Prop :=
  ∀ (width count : Byte) (arg : DWord) (s : State), s.Running → count.toNat ≤ 128 →
    (width.toNat ≤ 32 → ∃ b : Bytes, AppendsToOB (.wpack32 width count arg) s b ∧
      b = pack ((List.range count.toNat).map fun k => (s.v.toList.getD k 0).toNat % 2 ^ 32) width.toNat ∧
      b.length = (count.toNat * width.toNat + 7) / 8) ∧
    (width.toNat ≤ 64 → ∃ b : Bytes, AppendsToOB (.wpack64 width count arg) s b ∧
      b = pack ((List.range count.toNat).map fun k => (s.v.toList.getD k 0).toNat) width.toNat ∧
      b.length = (count.toNat * width.toNat + 7) / 8)

/-- Rule R169: `WPBOOL` appends one byte whose bit `7-i` is operand bit `i`, or raises `CAPACITY`. -/
def Obligations.BooleanWriteResult : Prop :=
  ∀ (arg : DWord) (s : State), s.Running →
    ∃ y : Byte, AppendsToOB (.wpbool arg) s [y] ∧ ∀ k, k < 8 → y.getLsbD (7 - k) = arg.getLsbD k

/-! ### Read primitives (rules R180 to R189) -/

/-- Rules R181 and R182: `RFIX32` and `RFIX64` read 4 or 8 bytes, the first the least significant, zero-extended into
`R`, and advance `RCPOS` over them; past `RCLIM` they raise `READ_PAST_END`. -/
def Obligations.FixedWidthReadResults : Prop :=
  ∀ (arg : DWord) (s : State), s.Running →
    let byte := fun k => (s.ib.read (s.rc.pos.toNat + k)).toNat
    (s.rc.pos.toNat + 4 ≤ s.rc.lim.toNat →
      exec (.rfix32 arg) s = .next { s with
        r := BitVec.ofNat 64 (byte 0 + 2 ^ 8 * byte 1 + 2 ^ 16 * byte 2 + 2 ^ 24 * byte 3),
        rc := s.rc.advance 4 }) ∧
    (s.rc.lim.toNat < s.rc.pos.toNat + 4 →
      exec (.rfix32 arg) s = .next (enterFault .readPastEnd (encode (.rfix32 arg)) s)) ∧
    (s.rc.pos.toNat + 8 ≤ s.rc.lim.toNat →
      exec (.rfix64 arg) s = .next { s with
        r := BitVec.ofNat 64 (byte 0 + 2 ^ 8 * byte 1 + 2 ^ 16 * byte 2 + 2 ^ 24 * byte 3 + 2 ^ 32 * byte 4 +
          2 ^ 40 * byte 5 + 2 ^ 48 * byte 6 + 2 ^ 56 * byte 7),
        rc := s.rc.advance 8 }) ∧
    (s.rc.lim.toNat < s.rc.pos.toNat + 8 →
      exec (.rfix64 arg) s = .next (enterFault .readPastEnd (encode (.rfix64 arg)) s))

/-- Rules R183 to R186. A varint of `n` bytes at the main cursor, padded or not, is read whole: `R` takes its value
(for the zigzag forms, the signed number it stands for) and `RCPOS` moves over exactly `n` bytes. Where `n`
continuation bytes lie before the limit: with the limit after fewer than the permitted bytes, `READ_PAST_END`; when
the last permitted byte continues, `VARINT_UNTERMINATED`; when it ends but holds bits beyond the width,
`VARINT_EXCESS`. -/
def Obligations.VarintReadResults : Prop :=
  (∀ (arg : DWord) (s : State) (n : Nat), s.Running →
    let a := s.rc.pos.toNat
    let u := groupSum s.ib a n
    VarintAt s.ib a n → a + n ≤ s.rc.lim.toNat →
    (n < 5 ∨ (n = 5 ∧ (s.ib.read (a + 4)).toNat < 16) →
      exec (.rvar32 arg) s = .next { s with r := BitVec.ofNat 64 u, rc := s.rc.advance n } ∧
      exec (.rzz32 arg) s = .next { s with r := BitVec.ofInt 64 (unzigzagInt u), rc := s.rc.advance n }) ∧
    (n < 10 ∨ (n = 10 ∧ (s.ib.read (a + 9)).toNat < 2) →
      exec (.rvar64 arg) s = .next { s with r := BitVec.ofNat 64 u, rc := s.rc.advance n } ∧
      exec (.rzz64 arg) s = .next { s with r := BitVec.ofInt 64 (unzigzagInt u), rc := s.rc.advance n })) ∧
  ∀ (i : Instr) (s : State) (n : Nat), s.Running →
    let a := s.rc.pos.toNat
    let most := if opcNo i = 0x32 ∨ opcNo i = 0x34 then 5 else 10
    let bound := if opcNo i = 0x32 ∨ opcNo i = 0x34 then 16 else 2
    opcNo i ∈ [0x32, 0x33, 0x34, 0x35] →
    (∀ k, k < n → 128 ≤ (s.ib.read (a + k)).toNat) → (n = 0 ∨ a + n ≤ s.rc.lim.toNat) →
    (n < most → s.rc.lim.toNat < a + n + 1 → exec i s = .next (enterFault .readPastEnd (encode i) s)) ∧
    (n = most → exec i s = .next (enterFault .varintUnterminated (encode i) s)) ∧
    (n + 1 = most → a + most ≤ s.rc.lim.toNat → (s.ib.read (a + n)).toNat < 128 →
      bound ≤ (s.ib.read (a + n)).toNat → exec i s = .next (enterFault .varintExcess (encode i) s))

/-- Rules R187 and R188: `RPACK32` and `RPACK64` take `ceil(count*w/8)` bytes and put value `i` of the bit stream in
lane `i`, leaving the lanes from `count` on alone; past `RCLIM` they raise `READ_PAST_END`. -/
def Obligations.PackReadResults : Prop :=
  ∀ (width count : Byte) (arg : DWord) (s : State) (i : Instr), s.Running → count.toNat ≤ 128 →
    (i = .rpack32 width count arg ∧ width.toNat ≤ 32) ∨ (i = .rpack64 width count arg ∧ width.toNat ≤ 64) →
    let w := width.toNat
    let n := (count.toNat * w + 7) / 8
    (s.rc.pos.toNat + n ≤ s.rc.lim.toNat → ∃ v : Vector DWord 128,
      exec i s = .next { s with v := v, rc := s.rc.advance n } ∧
      ∀ (k : Nat) (_ : k < 128), v[k] =
        if k < count.toNat then BitVec.ofNat 64 (leVal (s.ib.readBytes s.rc.pos.toNat n) / 2 ^ (k * w) % 2 ^ w)
        else s.v[k]) ∧
    (s.rc.lim.toNat < s.rc.pos.toNat + n → exec i s = .next (enterFault .readPastEnd (encode i) s))

/-- Rule R189: `RPBOOL` reads one byte; result bit `i` is bit `7-i` of the byte and the bits above are 0. -/
def Obligations.BooleanReadResult : Prop :=
  ∀ (arg : DWord) (s : State), s.Running →
    (s.rc.pos.toNat + 1 ≤ s.rc.lim.toNat → ∃ r : DWord,
      exec (.rpbool arg) s = .next { s with r := r, rc := s.rc.advance 1 } ∧
      ∀ k, r.getLsbD k = (decide (k < 8) && (s.ib.read s.rc.pos.toNat).getLsbD (7 - k))) ∧
    (s.rc.lim.toNat < s.rc.pos.toNat + 1 →
      exec (.rpbool arg) s = .next (enterFault .readPastEnd (encode (.rpbool arg)) s))

/-! ### The encoder lifecycle (rules R201 to R207 and their like for units 1 to 5) -/

/-- Rule R357: `ENC.u` with `Eu.FIN = 1` raises `ENCODE_AFTER_FINISH`, and nothing else ever does: a command that raises
it is the `ENC.u` of a unit `u` that is finished. -/
def Obligations.EncodeAfterFinishFaults : Prop :=
  (∀ (arg : DWord) (s : State), s.Running →
    (s.e0.fin = true → exec (.enc0 arg) s = .next (enterFault .encodeAfterFinish (encode (.enc0 arg)) s)) ∧
    (s.e1.fin = true → exec (.enc1 arg) s = .next (enterFault .encodeAfterFinish (encode (.enc1 arg)) s)) ∧
    (s.e2.hyb.fin = true → exec (.enc2 arg) s = .next (enterFault .encodeAfterFinish (encode (.enc2 arg)) s)) ∧
    (s.e3.hyb.fin = true → exec (.enc3 arg) s = .next (enterFault .encodeAfterFinish (encode (.enc3 arg)) s)) ∧
    (s.e4.fin = true → exec (.enc4 arg) s = .next (enterFault .encodeAfterFinish (encode (.enc4 arg)) s)) ∧
    (s.e5.fin = true → exec (.enc5 arg) s = .next (enterFault .encodeAfterFinish (encode (.enc5 arg)) s))) ∧
  ∀ (i : Instr) (s t : State), s.Running → exec i s = .next t → t.fault = true → t.fcode = 0x10 →
    ∃ u, opcNo i = 0x40 + u ∧ finFlag s u = true

/-- Rule R358: `DEC.u` with `Du.ACT = 0` raises `DECODER_NOT_INITIALISED`. -/
def Obligations.DecodeBeforeInitFaults : Prop :=
  ∀ (arg : DWord) (s : State), s.Running →
    (s.d0.act = false → exec (.dec0 arg) s = .next (enterFault .decoderNotInitialised (encode (.dec0 arg)) s)) ∧
    (s.d1.act = false → exec (.dec1 arg) s = .next (enterFault .decoderNotInitialised (encode (.dec1 arg)) s)) ∧
    (s.d3.act = false → exec (.dec3 arg) s = .next (enterFault .decoderNotInitialised (encode (.dec3 arg)) s)) ∧
    (s.d4.act = false → exec (.dec4 arg) s = .next (enterFault .decoderNotInitialised (encode (.dec4 arg)) s)) ∧
    (s.d5.act = false → exec (.dec5 arg) s = .next (enterFault .decoderNotInitialised (encode (.dec5 arg)) s))

/-- Rule R201: `FIN.u` on a finished unit does nothing, and `WTO.u` is `FIN.u` followed by an append of the staged
bytes to OB, all or nothing: a fault of either part leaves unit and OB as they were. -/
def Obligations.FinishIsIdempotentAndWtoAppends : Prop :=
  ∀ (arg : DWord) (s : State), s.Running →
    let unit := fun (fin wto : Instr) (finished : Bool) (staged : State → Bytes) =>
      (finished = true → exec fin s = .next s ∧ AppendsToOB wto s (staged s)) ∧
      (∀ t, exec fin s = .next t → t.Running →
        (s.ob.length + (staged t).length ≤ s.params.obcap →
          exec wto s = .next { t with ob := s.ob ++ staged t }) ∧
        (s.params.obcap < s.ob.length + (staged t).length →
          exec wto s = .next (enterFault .capacity (encode wto) s))) ∧
      (∀ code, exec fin s = .next (enterFault code (encode fin) s) →
        exec wto s = .next (enterFault code (encode wto) s))
    unit (.fin0 arg) (.wto0 arg) s.e0.fin (fun t => t.e0.st) ∧
    unit (.fin1 arg) (.wto1 arg) s.e1.fin (fun t => t.e1.st) ∧
    unit (.fin2 arg) (.wto2 arg) s.e2.hyb.fin (fun t => t.e2.hyb.st) ∧
    unit (.fin3 arg) (.wto3 arg) s.e3.hyb.fin (fun t => t.e3.hyb.st) ∧
    unit (.fin4 arg) (.wto4 arg) s.e4.fin (fun t => t.e4.st) ∧
    unit (.fin5 arg) (.wto5 arg) s.e5.fin (fun t => t.e5.st)

/-- Rules R204, R232, R239, R245, R292, R298 and R205, R233, R240, R246, R293, R299: `RST.u` empties its unit (and sets
the width of unit 1), touching nothing else; `SIZE.u` gives the staged length, of units 2 and 3 0 before the finish.
Both in every state that runs. -/
def Obligations.ResetAndSizeResults : Prop :=
  ∀ (arg : DWord) (s : State), s.Running →
    exec (.rst0 arg) s = .next { s with e0 := ⟨[], false, 0, 0⟩ } ∧
    (∀ width : Byte, width.toNat ≤ 32 →
      exec (.rst1 width arg) s = .next { s with e1 := ⟨[], false, width.toNat, 0, 0, [], [], 0⟩ }) ∧
    exec (.rst2 arg) s = .next { s with e2 := ⟨⟨[], false, 0, 0, 0, [], [], 0⟩, [], 0⟩ } ∧
    exec (.rst3 arg) s = .next { s with e3 := ⟨⟨[], false, 0, 0, 0, [], [], 0⟩, [], 0⟩ } ∧
    exec (.rst4 arg) s = .next { s with e4 := ⟨[], false, []⟩ } ∧
    exec (.rst5 arg) s = .next { s with e5 := ⟨[], false, []⟩ } ∧
    exec (.size0 arg) s = .next { s with r := BitVec.ofNat 64 s.e0.st.length } ∧
    exec (.size1 arg) s = .next { s with r := BitVec.ofNat 64 s.e1.st.length } ∧
    exec (.size2 arg) s = .next { s with r := BitVec.ofNat 64 s.e2.hyb.st.length } ∧
    exec (.size3 arg) s = .next { s with r := BitVec.ofNat 64 s.e3.hyb.st.length } ∧
    exec (.size4 arg) s = .next { s with r := BitVec.ofNat 64 s.e4.st.length } ∧
    exec (.size5 arg) s = .next { s with r := BitVec.ofNat 64 s.e5.st.length } ∧
    (s.e2.Inv s.params → s.e2.hyb.fin = false → exec (.size2 arg) s = .next { s with r := 0 }) ∧
    (s.e3.Inv s.params → s.e3.hyb.fin = false → exec (.size3 arg) s = .next { s with r := 0 })

/-- Rules R206, R234 with R226, R241, R247, R294, R300: the estimate of each unit, by its formula, lengths of varints
taken from the varints themselves; of a finished unit it is the staged length. -/
def Obligations.EstimateResults : Prop :=
  ∀ (arg : DWord) (s : State), s.Running →
    let run := fun (octuplets w : Nat) =>
      if octuplets = 0 then 0 else (varint (2 * octuplets + 1)).length + octuplets * w
    let answers := fun (i : Instr) (n : Nat) => exec i s = .next { s with r := BitVec.ofNat 64 n }
    answers (.est0 arg) (s.e0.st.length + if s.e0.bcnt = 0 then 0 else 1) ∧
    answers (.est1 arg) (s.e1.st.length + run (s.e1.noct + if s.e1.oct.length = 0 then 0 else 1) s.e1.wid +
      if s.e1.rn = 0 then 0 else (varint (2 * s.e1.rn)).length + (s.e1.wid + 7) / 8) ∧
    answers (.est2 arg)
      (if s.e2.hyb.fin then s.e2.hyb.st.length else run ((s.e2.raw.length + 7) / 8) s.e2.wmax) ∧
    answers (.est3 arg)
      (if s.e3.hyb.fin then s.e3.hyb.st.length else 1 + run ((s.e3.raw.length + 7) / 8) s.e3.wmax) ∧
    answers (.est4 arg) (s.e4.st.length + if s.e4.vb.length = 0 then 0 else 32 + 5 * s.e4.vb.length) ∧
    answers (.est5 arg) (s.e5.st.length + if s.e5.vb.length = 0 then 0 else 32 + 9 * s.e5.vb.length) ∧
    (s.e0.Inv s.params → s.e0.fin = true → answers (.est0 arg) s.e0.st.length) ∧
    (s.e1.Inv s.params → s.e1.fin = true → answers (.est1 arg) s.e1.st.length) ∧
    (s.e4.Inv s.params → s.e4.fin = true → answers (.est4 arg) s.e4.st.length) ∧
    (s.e5.Inv s.params → s.e5.fin = true → answers (.est5 arg) s.e5.st.length)

/-! ### Unit 0: the boolean codec (rules R202 to R210) -/

/-- Rule R202: `ENC.0` puts the boolean in bit `7-BCNT` of `BACC`; the eighth boolean of an octet appends the byte, or
raises `CAPACITY` when the staging buffer is full. After the finish it raises `ENCODE_AFTER_FINISH`. -/
def Obligations.BooleanEncodeResult : Prop :=
  ∀ (arg : DWord) (s : State), s.Running →
    (s.e0.fin = true → exec (.enc0 arg) s = .next (enterFault .encodeAfterFinish (encode (.enc0 arg)) s)) ∧
    (s.e0.fin = false → ∃ acc : Byte, (∀ k, k < 8 → acc.getLsbD k =
        (s.e0.bacc.getLsbD k || (decide (k + s.e0.bcnt = 7) && arg.getLsbD 0))) ∧
      (s.e0.bcnt < 7 →
        exec (.enc0 arg) s = .next { s with e0 := ⟨s.e0.st, false, acc, s.e0.bcnt + 1⟩ }) ∧
      (s.e0.bcnt = 7 → s.e0.st.length < s.params.stcap →
        exec (.enc0 arg) s = .next { s with e0 := ⟨s.e0.st ++ [acc], false, 0, 0⟩ }) ∧
      (s.e0.bcnt = 7 → s.params.stcap ≤ s.e0.st.length →
        exec (.enc0 arg) s = .next (enterFault .capacity (encode (.enc0 arg)) s)))

/-- Rules R203 and R207: `FIN.0` appends a partial octet once and sets `FIN`, and does nothing when `FIN` is set.
`WTO.0` appends the finished stream to OB as well. -/
def Obligations.BooleanFinishResult : Prop :=
  ∀ (arg : DWord) (s : State), s.Running → s.e0.Inv s.params →
    let st := s.e0.st ++ if s.e0.bcnt = 0 then [] else [s.e0.bacc]
    (s.e0.fin = true → exec (.fin0 arg) s = .next s) ∧
    (s.e0.fin = false → st.length ≤ s.params.stcap →
      exec (.fin0 arg) s = .next { s with e0 := ⟨st, true, 0, 0⟩ } ∧
      (s.ob.length + st.length ≤ s.params.obcap →
        exec (.wto0 arg) s = .next { s with e0 := ⟨st, true, 0, 0⟩, ob := s.ob ++ st })) ∧
    (s.e0.fin = false → s.params.stcap < st.length →
      exec (.fin0 arg) s = .next (enterFault .capacity (encode (.fin0 arg)) s) ∧
      exec (.wto0 arg) s = .next (enterFault .capacity (encode (.wto0 arg)) s))

/-- Rules R208, R262, R324, R326: `DINIT.u` builds a decoder over a copy of the main cursor and reads no byte. That the
arrays `OCT` and `WIDTHS` keep what they held is the model's own inference, log entry 14: no rule reads them before the
decoder loads them, and spec/93_implementation_defined.md says of `DINIT.u` that it overwrites every field. -/
def Obligations.DecoderConstruction : Prop :=
  ∀ (arg : DWord) (s : State), s.Running →
    exec (.dinit0 arg) s = .next { s with d0 := ⟨true, s.rc, 0, 0⟩ } ∧
    (∀ width : Byte, width.toNat ≤ 32 →
      exec (.dinit1 width arg) s = .next { s with d1 := ⟨true, s.rc, width.toNat, .idle, 0, 0, s.d1.oct, 8⟩ }) ∧
    exec (.dinit4 arg) s = .next { s with d4 := ⟨true, s.rc, 0, false, 0, 0, 0, s.d4.widths, [], 0, 0⟩ } ∧
    exec (.dinit5 arg) s = .next { s with d5 := ⟨true, s.rc, 0, false, 0, 0, 0, s.d5.widths, [], 0, 0⟩ }

/-- Rule R209: `DEC.0` returns the next boolean of `BYTE` from the top, taking a new byte when none is left, and
raises `READ_PAST_END` when there is no new byte; before `DINIT.0` it raises `DECODER_NOT_INITIALISED`. That a bit beyond
the byte reads as 0, which only a state outside the invariant can ask for, is the model's choice, log entry 10. -/
def Obligations.BooleanDecodeResult : Prop :=
  ∀ (arg : DWord) (s : State), s.Running →
    let y := s.ib.read s.d0.csr.pos.toNat
    (s.d0.act = false → exec (.dec0 arg) s = .next (enterFault .decoderNotInitialised (encode (.dec0 arg)) s)) ∧
    (s.d0.act = true → 0 < s.d0.brem → exec (.dec0 arg) s = .next { s with
      r := BitVec.ofNat 64 (if s.d0.byte.getLsbD (s.d0.brem - 1) then 1 else 0),
      d0 := { s.d0 with brem := s.d0.brem - 1 } }) ∧
    (s.d0.act = true → s.d0.brem = 0 → s.d0.csr.pos.toNat + 1 ≤ s.d0.csr.lim.toNat → exec (.dec0 arg) s = .next { s with
      r := BitVec.ofNat 64 (if y.getLsbD 7 then 1 else 0), d0 := ⟨true, s.d0.csr.advance 1, y, 7⟩ }) ∧
    (s.d0.act = true → s.d0.brem = 0 → s.d0.csr.lim.toNat < s.d0.csr.pos.toNat + 1 →
      exec (.dec0 arg) s = .next (enterFault .readPastEnd (encode (.dec0 arg)) s))

/-- The round trip of the boolean codec through the commands, rule R210, an inference the spec marks as its own: after `RST.0`, one `ENC.0` for each boolean
and `FIN.0` the staged stream holds the booleans eight to a byte from the top, missing ones as 0; a second `FIN.0`
changes nothing; and a decoder built over those bytes returns the booleans in order. -/
def Obligations.BooleanRoundTrip : Prop :=
  ∀ (bs : List Bool) (s : State), s.Running → bs.length ≤ 8 * s.params.stcap →
    let num := fun b : Bool => (if b then 1 else 0 : DWord)
    ∃ (rs : List DWord) (st : Bytes),
      runCommands (.rst0 0 :: bs.map (fun b => .enc0 (num b)) ++ [.fin0 0]) s =
        some (rs, { s with e0 := ⟨st, true, 0, 0⟩ }) ∧
      exec (.fin0 0) { s with e0 := ⟨st, true, 0, 0⟩ } = .next { s with e0 := ⟨st, true, 0, 0⟩ } ∧
      st.length = (bs.length + 7) / 8 ∧
      (∀ k, k < 8 * st.length → (st.getD (k / 8) 0).getLsbD (7 - k % 8) = bs.getD k false) ∧
      ∀ u : State, u.Running → u.ib.readBytes u.rc.pos.toNat st.length = st →
        u.rc.pos.toNat + st.length ≤ u.rc.lim.toNat →
        ∃ t, runCommands (.dinit0 0 :: bs.map (fun _ => .dec0 0)) u = some (u.r :: bs.map num, t)

/-! ### Units 1 to 3: the hybrid codec (rules R220 to R267) -/

/-- Rules R221, R224 and R230 at `ENC.1`: mid-octuplet the value is buffered; else it starts a candidate, extends it, closes
a run of at least the threshold as an RLE run after the pending bit-packed run, or absorbs a shorter one into
octuplets; each with its own capacity fault. After the finish it raises `ENCODE_AFTER_FINISH`. -/
def Obligations.HybridEncodeBranches : Prop :=
  (threshold 0 = 1 ∧ ∀ w, 1 ≤ w → w ≤ 32 → threshold w = (2 + (w + 7) / 8) * 8 / w + 1) ∧
  (∀ (arg : DWord) (s : State), s.Running → s.e1.fin = true →
    exec (.enc1 arg) s = .next (enterFault .encodeAfterFinish (encode (.enc1 arg)) s)) ∧
  ∀ (arg : DWord) (s : State), s.Running → s.e1.Inv s.params → s.e1.fin = false →
    let e := s.e1
    let v := arg.setWidth 32
    let goes := fun e' : HybridEnc => exec (.enc1 arg) s = .next { s with e1 := e' }
    let full := exec (.enc1 arg) s = .next (enterFault .capacity (encode (.enc1 arg)) s)
    (e.oct ≠ [] → e.oct.length < 7 → goes { e with oct := e.oct ++ [v] }) ∧
    (e.oct.length = 7 → e.pr.length + e.wid ≤ s.params.prcap →
      goes { e with oct := [], pr := e.pr ++ pack ((e.oct ++ [v]).map BitVec.toNat) e.wid, noct := e.noct + 1 }) ∧
    (e.oct.length = 7 → s.params.prcap < e.pr.length + e.wid → full) ∧
    (e.oct = [] → e.rn = 0 → goes { e with rv := v, rn := 1 }) ∧
    (e.oct = [] → 0 < e.rn → v = e.rv → e.rn < 2 ^ 31 - 1 → goes { e with rn := e.rn + 1 }) ∧
    (e.oct = [] → v = e.rv → e.rn = 2 ^ 31 - 1 → full) ∧
    (e.oct = [] → v ≠ e.rv → threshold e.wid ≤ e.rn →
      let st := e.st ++ (if e.noct = 0 then [] else varint (2 * e.noct + 1) ++ e.pr) ++ varint (2 * e.rn) ++
        pack [e.rv.toNat] e.wid
      (st.length ≤ s.params.stcap → goes { e with st := st, rv := v, rn := 1, pr := [], noct := 0 }) ∧
      (s.params.stcap < st.length → full)) ∧
    (e.oct = [] → v ≠ e.rv → 0 < e.rn → e.rn < threshold e.wid →
      let xs := List.replicate e.rn e.rv ++ if e.rn % 8 = 0 then [] else [v]
      let q := xs.length / 8
      (e.pr.length + q * e.wid ≤ s.params.prcap →
        goes { e with rv := (if e.rn % 8 = 0 then v else e.rv), rn := (if e.rn % 8 = 0 then 1 else 0),
                      oct := xs.drop (8 * q), pr := e.pr ++ pack ((xs.take (8 * q)).map BitVec.toNat) e.wid,
                      noct := e.noct + q }) ∧
      (s.params.prcap < e.pr.length + q * e.wid → full))

/-- Rules R229, R231, R235: `FIN.1` writes a partial octuplet padded with zeros inside the pending bit-packed run, else
the pending bit-packed run and the RLE candidate, and does nothing when `FIN` is set. `WTO.1` appends the stream to OB
as well. -/
def Obligations.HybridFinishResult : Prop :=
  ∀ (arg : DWord) (s : State), s.Running → s.e1.Inv s.params →
    let e := s.e1
    let padded := e.oct ++ List.replicate (8 - e.oct.length) 0
    let st := e.st ++
      if e.oct ≠ [] then varint (2 * (e.noct + 1) + 1) ++ e.pr ++ pack (padded.map BitVec.toNat) e.wid
      else (if e.noct = 0 then [] else varint (2 * e.noct + 1) ++ e.pr) ++
        if e.rn = 0 then [] else varint (2 * e.rn) ++ pack [e.rv.toNat] e.wid
    let e' : HybridEnc := { e with st := st, fin := true, rn := 0, oct := [], pr := [], noct := 0 }
    let fits := st.length ≤ s.params.stcap ∧ (e.oct ≠ [] → e.pr.length + e.wid ≤ s.params.prcap)
    (e.fin = true → exec (.fin1 arg) s = .next s) ∧
    (e.fin = false → fits → exec (.fin1 arg) s = .next { s with e1 := e' } ∧
      (s.ob.length + st.length ≤ s.params.obcap →
        exec (.wto1 arg) s = .next { s with e1 := e', ob := s.ob ++ st })) ∧
    (e.fin = false → ¬fits → exec (.fin1 arg) s = .next (enterFault .capacity (encode (.fin1 arg)) s) ∧
      exec (.wto1 arg) s = .next (enterFault .capacity (encode (.wto1 arg)) s))

/-- Rules R237 and R243: `ENC.2` and `ENC.3` buffer the value and keep the largest bit width seen, or raise `CAPACITY`
when the raw buffer is full, and `ENCODE_AFTER_FINISH` after the finish. -/
def Obligations.SelfWidthEncodeResults : Prop :=
  ∀ (arg : DWord) (s : State), s.Running →
    let v := arg.setWidth 32
    let next := fun u : SelfEnc => { u with raw := u.raw ++ [v], wmax := max u.wmax (bitWidth v.toNat) }
    (s.e2.hyb.fin = true → exec (.enc2 arg) s = .next (enterFault .encodeAfterFinish (encode (.enc2 arg)) s)) ∧
    (s.e3.hyb.fin = true → exec (.enc3 arg) s = .next (enterFault .encodeAfterFinish (encode (.enc3 arg)) s)) ∧
    (s.e2.hyb.fin = false → s.e2.raw.length < s.params.rawcap →
      exec (.enc2 arg) s = .next { s with e2 := next s.e2 }) ∧
    (s.e2.hyb.fin = false → s.params.rawcap ≤ s.e2.raw.length →
      exec (.enc2 arg) s = .next (enterFault .capacity (encode (.enc2 arg)) s)) ∧
    (s.e3.hyb.fin = false → s.e3.raw.length < s.params.rawcap →
      exec (.enc3 arg) s = .next { s with e3 := next s.e3 }) ∧
    (s.e3.hyb.fin = false → s.params.rawcap ≤ s.e3.raw.length →
      exec (.enc3 arg) s = .next (enterFault .capacity (encode (.enc3 arg)) s))

/-- Rules R236, R238, R244: finishing unit 2 or 3 replays the raw values at the width `WMAX`. The stream is the very
one unit 1 makes of `RST.1 w=WMAX`, one `ENC.1` for each raw value and `FIN.1`, preceded on unit 3 by the width byte.
It always completes when the staging buffer has 9 bytes for each value and 33 more, and the run buffer 4 for each
value and 32 more; `WTO.2` and `WTO.3` then append it to OB. -/
def Obligations.SelfWidthFinishIsReplayOnUnit1 : Prop :=
  ∀ (arg : DWord) (s : State), s.Running → s.params.Admissible →
    let replay := fun (u : SelfEnc) =>
      (.rst1 (BitVec.ofNat 8 u.wmax) 0 :: u.raw.map (fun x => .enc1 (x.setWidth 64)) ++ [.fin1 0] : List Instr)
    let room := fun u : SelfEnc => 9 * u.raw.length + 33 ≤ s.params.stcap ∧ 4 * u.raw.length + 32 ≤ s.params.prcap
    (s.e2.Inv s.params → s.e2.hyb.fin = false → room s.e2 → ∃ (rs : List DWord) (t : State),
      runCommands (replay s.e2) s = some (rs, t) ∧
      exec (.fin2 arg) s = .next { s with e2 := { s.e2 with hyb := t.e1 } } ∧
      (s.ob.length + t.e1.st.length ≤ s.params.obcap →
        exec (.wto2 arg) s = .next { s with e2 := { s.e2 with hyb := t.e1 }, ob := s.ob ++ t.e1.st })) ∧
    (s.e3.Inv s.params → s.e3.hyb.fin = false → room s.e3 → ∃ (rs : List DWord) (t : State) (st : Bytes),
      runCommands (replay s.e3) s = some (rs, t) ∧ st = BitVec.ofNat 8 s.e3.wmax :: t.e1.st ∧
      exec (.fin3 arg) s = .next { s with e3 := { s.e3 with hyb := { t.e1 with st := st } } } ∧
      (s.ob.length + st.length ≤ s.params.obcap →
        exec (.wto3 arg) s =
          .next { s with e3 := { s.e3 with hyb := { t.e1 with st := st } }, ob := s.ob ++ st }))

/-- Rule R264: `DINIT.3` reads the width byte through the private cursor: `BAD_WIDTH` above 32, `READ_PAST_END` on an
empty view, else a decoder of that width; the main cursor stays. That the array `OCT` keeps what it held is the model's
own inference, log entry 14, against the words of spec/93_implementation_defined.md. -/
def Obligations.PrefixedDecoderConstruction : Prop :=
  ∀ (arg : DWord) (s : State), s.Running →
    let y := (s.ib.read s.rc.pos.toNat).toNat
    (s.rc.pos.toNat + 1 ≤ s.rc.lim.toNat → y ≤ 32 →
      exec (.dinit3 arg) s = .next { s with d3 := ⟨true, s.rc.advance 1, y, .idle, 0, 0, s.d3.oct, 8⟩ }) ∧
    (s.rc.pos.toNat + 1 ≤ s.rc.lim.toNat → 32 < y →
      exec (.dinit3 arg) s = .next (enterFault .badWidth (encode (.dinit3 arg)) s)) ∧
    (s.rc.lim.toNat < s.rc.pos.toNat + 1 →
      exec (.dinit3 arg) s = .next (enterFault .readPastEnd (encode (.dinit3 arg)) s))

/-- Rules R261, R263, R265: what the search for the next value yields in each branch, that an empty run yields no value
and the search goes on after it, that a read that does not fit raises its fault, that a value found fits the width; that
`DEC.1` and `DEC.3` return just what the search finds, after an empty run or not, or raise its fault; and that before
`DINIT.u` they raise `DECODER_NOT_INITIALISED`. That a missing element of `OCT` reads as 0, which only a state outside the
invariant can ask for, is the model's choice, log entry 10. -/
def Obligations.HybridDecodeResults : Prop :=
  (∀ (m : Memory) (d : HybridDec) v d', HybridYields m d v d' → rleNext m d = .ok (v, d')) ∧
  (∀ (m : Memory) (d : HybridDec) (h : Word) (c : Cursor), d.AtHeader → readVarint 32 m d.csr = .ok (h, c) →
    (h = 1 → rleNext m d = rleNext m { d with csr := c, mode := .packed, rem := 0, opos := 8 }) ∧
    (h = 0 → c.pos.toNat + bytesFor d.wid ≤ c.lim.toNat →
      rleNext m d = rleNext m { d with csr := c.advance (bytesFor d.wid), mode := .rle, rem := 0,
                                       val := runValueAt m c.pos.toNat d.wid })) ∧
  (∀ (m : Memory) (d : HybridDec) (code : FaultCode), d.AtHeader → readVarint 32 m d.csr = .error code →
    rleNext m d = .error code) ∧
  (∀ (m : Memory) (d : HybridDec) (h : Word) (c : Cursor), d.AtHeader → readVarint 32 m d.csr = .ok (h, c) →
    (h.toNat % 2 = 1 → 0 < h.toNat / 2 → c.lim.toNat < c.pos.toNat + d.wid → rleNext m d = .error .readPastEnd) ∧
    (h.toNat % 2 = 0 → c.lim.toNat < c.pos.toNat + bytesFor d.wid → rleNext m d = .error .readPastEnd)) ∧
  (∀ (m : Memory) (d : HybridDec), d.mode = .packed → 8 ≤ d.opos → 0 < d.rem →
    d.csr.lim.toNat < d.csr.pos.toNat + d.wid → rleNext m d = .error .readPastEnd) ∧
  (∀ (m : Memory) (d d' : HybridDec) (v limit : Word), d.Inv limit → rleNext m d = .ok (v, d') →
    v.toNat < 2 ^ d.wid) ∧
  ∀ (arg : DWord) (s : State), s.Running →
    (s.d1.act = false → exec (.dec1 arg) s = .next (enterFault .decoderNotInitialised (encode (.dec1 arg)) s)) ∧
    (s.d3.act = false → exec (.dec3 arg) s = .next (enterFault .decoderNotInitialised (encode (.dec3 arg)) s)) ∧
    (s.d1.act = true → ∀ v d', HybridYields s.ib s.d1 v d' →
      exec (.dec1 arg) s = .next { s with d1 := d', r := v.setWidth 64 }) ∧
    (s.d1.act = true → ∀ v d', rleNext s.ib s.d1 = .ok (v, d') →
      exec (.dec1 arg) s = .next { s with d1 := d', r := v.setWidth 64 }) ∧
    (s.d1.act = true → ∀ code, rleNext s.ib s.d1 = .error code →
      exec (.dec1 arg) s = .next (enterFault code (encode (.dec1 arg)) s)) ∧
    (s.d3.act = true → ∀ v d', HybridYields s.ib s.d3 v d' →
      exec (.dec3 arg) s = .next { s with d3 := d', r := v.setWidth 64 }) ∧
    (s.d3.act = true → ∀ v d', rleNext s.ib s.d3 = .ok (v, d') →
      exec (.dec3 arg) s = .next { s with d3 := d', r := v.setWidth 64 }) ∧
    (s.d3.act = true → ∀ code, rleNext s.ib s.d3 = .error code →
      exec (.dec3 arg) s = .next (enterFault code (encode (.dec3 arg)) s))

/-! ### Units 4 and 5: the delta codec (rules R281 to R327) -/

/-- Rule R290: `ENC.4` buffers the value; a buffer of 129 values is first closed as a block, or `CAPACITY` is raised
and the value not taken. After the finish it raises `ENCODE_AFTER_FINISH`. -/
def Obligations.DeltaEncodeResult : Prop :=
  (∀ (arg : DWord) (s : State), s.Running → s.e4.fin = true →
    exec (.enc4 arg) s = .next (enterFault .encodeAfterFinish (encode (.enc4 arg)) s)) ∧
  ∀ (arg : DWord) (s : State), s.Running → s.e4.fin = false →
    let v := arg.setWidth 32
    let block := bestBlock 32 (s.e4.vb.map BitVec.toInt)
    (s.e4.vb.length ≠ 129 → exec (.enc4 arg) s = .next { s with e4 := { s.e4 with vb := s.e4.vb ++ [v] } }) ∧
    (s.e4.vb.length = 129 → s.e4.st.length + block.length ≤ s.params.stcap →
      exec (.enc4 arg) s = .next { s with e4 := ⟨s.e4.st ++ block, false, [v]⟩ }) ∧
    (s.e4.vb.length = 129 → s.params.stcap < s.e4.st.length + block.length →
      exec (.enc4 arg) s = .next (enterFault .capacity (encode (.enc4 arg)) s))

/-- Rules R289 and R296: `ENC.5` buffers as `ENC.4` does and then compares, when more than 8 deltas are held, one block
with the split at the last full boundary, and flushes the first part early only on a strict gain. After the finish it
raises `ENCODE_AFTER_FINISH`. -/
def Obligations.DeltaLookaheadEncodeResult : Prop :=
  (∀ (arg : DWord) (s : State), s.Running → s.e5.fin = true →
    exec (.enc5 arg) s = .next (enterFault .encodeAfterFinish (encode (.enc5 arg)) s)) ∧
  ∀ (arg : DWord) (s : State), s.Running → s.e5.fin = false →
    let block := fun xs : List DWord => bestBlock 64 (xs.map BitVec.toInt)
    let full := exec (.enc5 arg) s = .next (enterFault .capacity (encode (.enc5 arg)) s)
    let vb := s.e5.vb ++ [arg]
    let n := s.e5.vb.length
    let k := 1 + 8 * ((n - 1) / 8)
    let gain := 8 < n ∧ (block (vb.take k)).length + (block (vb.drop k)).length < (block vb).length
    (n = 129 → s.e5.st.length + (block s.e5.vb).length ≤ s.params.stcap →
      exec (.enc5 arg) s = .next { s with e5 := ⟨s.e5.st ++ block s.e5.vb, false, [arg]⟩ }) ∧
    (n = 129 → s.params.stcap < s.e5.st.length + (block s.e5.vb).length → full) ∧
    (n ≠ 129 → ¬gain → exec (.enc5 arg) s = .next { s with e5 := ⟨s.e5.st, false, vb⟩ }) ∧
    (n ≠ 129 → gain → s.e5.st.length + (block (vb.take k)).length ≤ s.params.stcap →
      exec (.enc5 arg) s = .next { s with e5 := ⟨s.e5.st ++ block (vb.take k), false, vb.drop k⟩ }) ∧
    (n ≠ 129 → gain → s.params.stcap < s.e5.st.length + (block (vb.take k)).length → full)

/-- Rules R288, R291, R297: finishing a delta unit closes what is buffered as one last block and runs no lookahead; an
empty buffer adds nothing, and a finished unit does nothing; `WTO` appends the stream to OB as well. -/
def Obligations.DeltaFinishResults : Prop :=
  ∀ (arg : DWord) (s : State), s.Running →
    let st4 := s.e4.st ++ if s.e4.vb = [] then [] else bestBlock 32 (s.e4.vb.map BitVec.toInt)
    let st5 := s.e5.st ++ if s.e5.vb = [] then [] else bestBlock 64 (s.e5.vb.map BitVec.toInt)
    (s.e4.fin = true → exec (.fin4 arg) s = .next s) ∧ (s.e5.fin = true → exec (.fin5 arg) s = .next s) ∧
    (s.e4.fin = false → (s.e4.vb = [] ∨ st4.length ≤ s.params.stcap) →
      exec (.fin4 arg) s = .next { s with e4 := ⟨st4, true, []⟩ } ∧
      (s.ob.length + st4.length ≤ s.params.obcap →
        exec (.wto4 arg) s = .next { s with e4 := ⟨st4, true, []⟩, ob := s.ob ++ st4 })) ∧
    (s.e4.fin = false → s.e4.vb ≠ [] → s.params.stcap < st4.length →
      exec (.fin4 arg) s = .next (enterFault .capacity (encode (.fin4 arg)) s) ∧
      exec (.wto4 arg) s = .next (enterFault .capacity (encode (.wto4 arg)) s)) ∧
    (s.e5.fin = false → (s.e5.vb = [] ∨ st5.length ≤ s.params.stcap) →
      exec (.fin5 arg) s = .next { s with e5 := ⟨st5, true, []⟩ } ∧
      (s.ob.length + st5.length ≤ s.params.obcap →
        exec (.wto5 arg) s = .next { s with e5 := ⟨st5, true, []⟩, ob := s.ob ++ st5 })) ∧
    (s.e5.fin = false → s.e5.vb ≠ [] → s.params.stcap < st5.length →
      exec (.fin5 arg) s = .next (enterFault .capacity (encode (.fin5 arg)) s) ∧
      exec (.wto5 arg) s = .next (enterFault .capacity (encode (.wto5 arg)) s))

/-- Rules R281, R285 and R287: the block size is the smallest of 0, 8, 16, 32, 64, 128 that holds the deltas; the block
written is the first of the shortest among the candidate mini-block sizes, or, for one value, the four varints 0, 0,
1 and the zigzag value. -/
def Obligations.BlockSearchIsMinimal : Prop :=
  (∀ n, n ≤ 128 → blockSize n ∈ [0, 8, 16, 32, 64, 128] ∧ n ≤ blockSize n ∧
    ∀ b ∈ [0, 8, 16, 32, 64, 128], n ≤ b → blockSize n ≤ b) ∧
  (∀ (w : Nat) (v : BitVec w), bestBlock w [v.toInt] = [0x00, 0x00, 0x01] ++ varint (zigzag v).toNat) ∧
  ∀ (w : Nat) (vals : List Int), 2 ≤ vals.length → vals.length ≤ 129 →
    let bs := blockSize (vals.length - 1)
    ∃ m ∈ [8, 16, 32, 64, 128], m ≤ bs ∧ bestBlock w vals = serialize w vals m ∧
      ∀ m' ∈ [8, 16, 32, 64, 128], m' ≤ bs →
        (serialize w vals m).length ≤ (serialize w vals m').length ∧
        (m' < m → (serialize w vals m).length < (serialize w vals m').length)

/-- The length of a serialised block, from the lengths of its header fields and the values each mini-block holds:
mini-block `j` holds the deltas from `j*m` up to `(j+1)*m` or the last. An inference the spec marks as its own, the
length function of rule R303. -/
def Obligations.SerializedBlockLength : Prop :=
  ∀ (w : Nat) (vals : List Int) (m : Nat), 2 ≤ vals.length → vals.length ≤ 129 → m ∈ [8, 16, 32, 64, 128] →
    m ≤ blockSize (vals.length - 1) →
    let n := vals.length - 1
    let bs := blockSize n
    let rels := storedRels vals
    let held := fun j : Nat => (rels.drop (j * m)).take m
    rels.length = n ∧ (∀ j, (held j).length = min ((j + 1) * m) n - j * m) ∧
    (serialize w vals m).length =
      varlen bs + varlen (bs / m) + varlen vals.length + varlen (zigzag (BitVec.ofInt w (vals.headD 0))).toNat +
        varlen (zigzag (storedMin vals)).toNat + bs / m +
        ((List.range (bs / m)).map fun j => ((held j).length * miniWidth (held j) + 7) / 8).sum

/-- The estimate before a finish against the staged length after it: exact for units 0 and 1, an upper bound for units
4 and 5, where a finish with that much room in the staging buffer completes. These are inferences the spec marks as its
own: "The estimate is exact for this unit" in rule R206, "It is exact, not only an upper bound" in rule R226, "It is an
upper bound on `SIZE.4`" in rule R294, and the like in rule R300. -/
def Obligations.EstimatesBoundFinish : Prop :=
  ∀ (arg : DWord) (s : State), s.Running →
    (s.e0.Inv s.params → ∀ t, exec (.fin0 arg) s = .next t → t.Running →
      exec (.est0 arg) s = .next { s with r := BitVec.ofNat 64 t.e0.st.length }) ∧
    (s.e1.Inv s.params → ∀ t, exec (.fin1 arg) s = .next t → t.Running →
      exec (.est1 arg) s = .next { s with r := BitVec.ofNat 64 t.e1.st.length }) ∧
    let est4 := s.e4.st.length + if 0 < s.e4.vb.length then 32 + 5 * s.e4.vb.length else 0
    let est5 := s.e5.st.length + if 0 < s.e5.vb.length then 32 + 9 * s.e5.vb.length else 0
    exec (.est4 arg) s = .next { s with r := BitVec.ofNat 64 est4 } ∧
    exec (.est5 arg) s = .next { s with r := BitVec.ofNat 64 est5 } ∧
    (s.e4.fin = false → s.e4.vb.length ≤ 129 → est4 ≤ s.params.stcap →
      ∃ e, exec (.fin4 arg) s = .next { s with e4 := e } ∧ e.fin = true ∧ e.st.length ≤ est4) ∧
    (s.e5.fin = false → s.e5.vb.length ≤ 129 → est5 ≤ s.params.stcap →
      ∃ e, exec (.fin5 arg) s = .next { s with e5 := e } ∧ e.fin = true ∧ e.st.length ≤ est5)

/-- Rule R321: the fields of a block header are read in order, a fault of a read ending it there; the header whose
three counts and first value have been read is checked before anything else is read; a bad one raises
`BAD_BLOCK_HEADER`; one without mini-blocks is a block of one value; else min_delta and the width bytes follow, of
which one above 33 (unit 4) or 64 (unit 5) raises `BAD_WIDTH`. -/
def Obligations.BlockHeaderIsChecked : Prop :=
  (∀ (w : Nat) (m : Memory) (d : DeltaDec w) (code : FaultCode),
    (readVarint 32 m d.csr = .error code → readBlockHeader m d = .error code) ∧
    ∀ bs c1, readVarint 32 m d.csr = .ok (bs, c1) →
      (readVarint 32 m c1 = .error code → readBlockHeader m d = .error code) ∧
      ∀ mc c2, readVarint 32 m c1 = .ok (mc, c2) →
        (readVarint 32 m c2 = .error code → readBlockHeader m d = .error code) ∧
        ∀ vc c3, readVarint 32 m c2 = .ok (vc, c3) →
          readVarint w m c3 = .error code → readBlockHeader m d = .error code) ∧
  ∀ (w : Nat) (m : Memory) (d : DeltaDec w) (bs mc vc : Word) (u : BitVec w) (c1 c2 c3 c4 : Cursor),
    readVarint 32 m d.csr = .ok (bs, c1) → readVarint 32 m c1 = .ok (mc, c2) →
    readVarint 32 m c2 = .ok (vc, c3) → readVarint w m c3 = .ok (u, c4) →
    let bad := 128 < bs.toNat ∨ 16 < mc.toNat ∨ vc.toNat < 1 ∨ bs.toNat < vc.toNat - 1 ∨
      (mc.toNat = 0 ∧ vc.toNat ≠ 1) ∨
      (mc.toNat ≠ 0 ∧ (bs.toNat % mc.toNat ≠ 0 ∨ bs.toNat / mc.toNat = 0 ∨ bs.toNat / mc.toNat % 8 ≠ 0))
    (bad → readBlockHeader m d = .error .badBlockHeader) ∧
    (¬bad → mc.toNat = 0 → readBlockHeader m d = .ok { d with
      csr := c4, remv := 1, first := true, cur := unzigzag u, mind := 0, msz := 0, mb := [], mbpos := 0,
      mbidx := 0 }) ∧
    (¬bad → mc.toNat ≠ 0 → ∀ code, readVarint 64 m c4 = .error code → readBlockHeader m d = .error code) ∧
    (¬bad → mc.toNat ≠ 0 → ∀ (md : DWord) (c5 : Cursor), readVarint 64 m c4 = .ok (md, c5) →
      let ws := m.readBytes c5.pos.toNat mc.toNat
      (c5.lim.toNat < c5.pos.toNat + mc.toNat → readBlockHeader m d = .error .readPastEnd) ∧
      (c5.pos.toNat + mc.toNat ≤ c5.lim.toNat →
        ((∃ y ∈ ws, (if w = 32 then 33 else 64) < y.toNat) → readBlockHeader m d = .error .badWidth) ∧
        ((∀ y ∈ ws, y.toNat ≤ if w = 32 then 33 else 64) → readBlockHeader m d = .ok { d with
          csr := c5.advance mc.toNat, remv := vc.toNat, first := true, cur := unzigzag u, mind := unzigzag md,
          msz := bs.toNat / mc.toNat, widths := ws, mb := [], mbpos := 0, mbidx := 0 })))

/-- Rules R322, R323, R325, R327: `DEC.4` and `DEC.5` return the first value of a block from its header, else the
previous value plus the next relative delta plus min_delta, wrapped to the unit's width, loading the next mini-block
or header when the one before is used up; before `DINIT.u` they raise `DECODER_NOT_INITIALISED`. The clauses hold in every
state; where only a state outside the invariant reads a missing element of `WIDTHS` or `MB` (or loads an empty
mini-block, against rule R322's `MSZ > 0`), that it reads as 0 is the model's choice, log entry 10. -/
def Obligations.DeltaDecodeResults : Prop :=
  ∀ (arg : DWord) (s : State), s.Running →
    let block := fun (w : Nat) (d : DeltaDec w) (i : Instr) (set : DeltaDec w → State) (ext : BitVec w → DWord) =>
      (0 < d.remv → d.first = true →
        exec i s = .next { set { d with first := false, remv := d.remv - 1 } with r := ext d.cur }) ∧
      (0 < d.remv → d.first = false → d.mbpos < d.mb.length →
        let v := BitVec.ofInt w (d.cur.toInt + (d.mb.getD d.mbpos 0).toNat + d.mind.toInt)
        exec i s =
          .next { set { d with cur := v, mbpos := d.mbpos + 1, remv := d.remv - 1 } with r := ext v }) ∧
      (0 < d.remv → d.first = false → d.mbpos = d.mb.length →
        let k := min d.msz d.remv
        let wd := (d.widths.getD d.mbidx 0).toNat
        let n := (k * wd + 7) / 8
        let rels := (unpack (s.ib.readBytes d.csr.pos.toNat n) wd k).map (BitVec.ofNat 64)
        let v := BitVec.ofInt w (d.cur.toInt + (rels.getD 0 0).toNat + d.mind.toInt)
        (d.csr.pos.toNat + n ≤ d.csr.lim.toNat →
          exec i s = .next { set { d with csr := d.csr.advance n, cur := v, mb := rels, mbpos := 1,
                                          mbidx := d.mbidx + 1, remv := d.remv - 1 } with r := ext v }) ∧
        (d.csr.lim.toNat < d.csr.pos.toNat + n → exec i s = .next (enterFault .readPastEnd (encode i) s))) ∧
      (d.remv = 0 →
        (∀ h, readBlockHeader s.ib d = .ok h →
          exec i s = .next { set { h with first := false, remv := h.remv - 1 } with r := ext h.cur }) ∧
        ∀ code, readBlockHeader s.ib d = .error code → exec i s = .next (enterFault code (encode i) s))
    (s.d4.act = false → exec (.dec4 arg) s = .next (enterFault .decoderNotInitialised (encode (.dec4 arg)) s)) ∧
    (s.d5.act = false → exec (.dec5 arg) s = .next (enterFault .decoderNotInitialised (encode (.dec5 arg)) s)) ∧
    (s.d4.act = true → block 32 s.d4 (.dec4 arg) (fun d => { s with d4 := d }) (fun v => v.signExtend 64)) ∧
    (s.d5.act = true → block 64 s.d5 (.dec5 arg) (fun d => { s with d5 := d }) (fun v => v))

/-- Rules R286 and R328 for one block: decoding the block the encoder writes for 1 to 129 values returns exactly those
values, in order, and leaves the decoder's cursor at the end of the block; for unit 4 and for unit 5. -/
def Obligations.DeltaBlockRoundTrip : Prop :=
  ∀ s : State, s.Running →
    (∀ vals : List (BitVec 32), 1 ≤ vals.length → vals.length ≤ 129 →
      let block := bestBlock 32 (vals.map BitVec.toInt)
      s.ib.readBytes s.rc.pos.toNat block.length = block → s.rc.pos.toNat + block.length ≤ s.rc.lim.toNat →
      ∃ t, runCommands (.dinit4 0 :: vals.map (fun _ => .dec4 0)) s =
          some (s.r :: vals.map (fun v => v.signExtend 64), t) ∧
        t.d4.csr = s.rc.advance block.length ∧ t.d4.remv = 0) ∧
    ∀ vals : List (BitVec 64), 1 ≤ vals.length → vals.length ≤ 129 →
      let block := bestBlock 64 (vals.map BitVec.toInt)
      s.ib.readBytes s.rc.pos.toNat block.length = block → s.rc.pos.toNat + block.length ≤ s.rc.lim.toNat →
      ∃ t, runCommands (.dinit5 0 :: vals.map (fun _ => .dec5 0)) s = some (s.r :: vals, t) ∧
        t.d5.csr = s.rc.advance block.length ∧ t.d5.remv = 0
end

