-- ==== Sys2Proof/Laws/Codec.lean ====
section
/-! SUPPORT. Laws of the codec functions: how long and how large what they answer can be. -/

namespace Sys2Proof.Machine

/-- A number fits its bit width (rule R12). -/
theorem bitWidth_lt (x : Nat) : x < 2 ^ bitWidth x := by
  unfold bitWidth
  split
  · simp_all
  · exact Nat.lt_log2_self

/-- The bit width is the least number of bits that holds the number (rule R12). -/
theorem bitWidth_le_iff {x n : Nat} : bitWidth x ≤ n ↔ x < 2 ^ n := by
  refine ⟨fun h => lt_of_lt_of_le (bitWidth_lt x) (Nat.pow_le_pow_right (by omega) h), fun h => ?_⟩
  unfold bitWidth
  split
  · exact Nat.zero_le n
  · next h0 => exact (Nat.log2_lt h0).2 h

@[simp] theorem bytesLE_length (x n : Nat) : (bytesLE x n).length = n := by
  induction n generalizing x with
  | zero => rfl
  | succ n ih => simp [bytesLE, ih]

/-- Byte `k` of a little-endian byte string (rule R8). -/
theorem bytesLE_getD (n : Nat) : ∀ x k, k < n → (bytesLE x n).getD k 0 = BitVec.ofNat 8 (x / 256 ^ k) := by
  induction n with
  | zero => intros; omega
  | succ n ih =>
    intro x k hk
    cases k with
    | zero => simp [bytesLE]
    | succ k =>
      simp only [bytesLE, List.getD_cons_succ]
      rw [ih _ _ (by omega), Nat.div_div_eq_div_mul, Nat.pow_succ, Nat.mul_comm 256]

/-- Reading a little-endian byte string back (rule R8). -/
theorem leVal_bytesLE (n : Nat) : ∀ x, leVal (bytesLE x n) = x % 256 ^ n := by
  induction n with
  | zero => intro x; simp [bytesLE, leVal, Nat.mod_one]
  | succ n ih =>
    intro x
    simp only [bytesLE, leVal, ih]
    rw [BitVec.toNat_ofNat, show 256 ^ (n + 1) = 256 * 256 ^ n by ring, Nat.mod_mul]

theorem leVal_lt : ∀ b : Bytes, leVal b < 256 ^ b.length
  | [] => by simp [leVal]
  | b :: bs => by
    have := leVal_lt bs
    have := b.isLt
    simp only [leVal, List.length_cons, Nat.pow_succ]
    omega

/-- The stream of packed values has no bit above the last value (rule R16). -/
theorem packSum_lt (w : Nat) : ∀ vals : List Nat, packSum w vals < 2 ^ (vals.length * w)
  | [] => by simp [packSum]
  | v :: vs => by
    have ih := packSum_lt w vs
    have hv : v % 2 ^ w < 2 ^ w := Nat.mod_lt _ (Nat.two_pow_pos _)
    rw [packSum, List.length_cons, Nat.add_mul, Nat.one_mul, Nat.add_comm (vs.length * w), Nat.pow_add]
    calc _ < 2 ^ w * (packSum w vs + 1) := by rw [Nat.mul_add]; omega
      _ ≤ _ := Nat.mul_le_mul_left _ ih

/-- The bytes of packed values are the little-endian form of their stream (rules R16, R17). -/
theorem leVal_pack (vals : List Nat) (w : Nat) : leVal (pack vals w) = packSum w vals := by
  unfold pack
  rw [leVal_bytesLE, Nat.mod_eq_of_lt]
  refine lt_of_lt_of_le (packSum_lt w vals) ?_
  rw [show 256 = 2 ^ 8 from rfl, ← Nat.pow_mul]
  exact Nat.pow_le_pow_right (by omega) (by unfold bytesFor; omega)

end Sys2Proof.Machine
end

