-- ==== Sys2Proof/Laws/Memory.lean ====
section
/-! SUPPORT. The laws of IB: a read after a write, and that every memory operation keeps the canonical form. -/

namespace Sys2Proof.Machine

theorem lookupByte_below {a : Nat} : ∀ {l : List Host.Cell} {lo : Nat}, cellsFrom lo l = true → a < lo →
    lookupByte a l = Config.ibUnwritten
  | [], _, _, _ => rfl
  | (k, b) :: t, lo, h, ha => by
    simp only [cellsFrom, Bool.and_eq_true, decide_eq_true_eq] at h
    have hk : k ≠ a := by omega
    simp only [lookupByte, hk, if_false]
    exact lookupByte_below h.2 (by omega)

theorem cellsFrom_mono : ∀ {l : List Host.Cell} {lo lo' : Nat}, cellsFrom lo l = true → lo' ≤ lo →
    cellsFrom lo' l = true
  | [], _, _, _, _ => rfl
  | (k, b) :: t, lo, lo', h, hle => by
    simp only [cellsFrom, Bool.and_eq_true, decide_eq_true_eq] at h ⊢
    exact ⟨⟨by omega, h.1.2⟩, h.2⟩

theorem insertByte_cellsFrom (a : Nat) (b : Byte) : ∀ {l : List Host.Cell} {lo : Nat}, cellsFrom lo l = true →
    lo ≤ a → cellsFrom lo (insertByte a b l) = true
  | [], lo, _, hlo => by
    simp only [insertByte]
    split
    · rfl
    · next hb => simp [cellsFrom, hb, hlo]
  | (k, x) :: t, lo, h, hlo => by
    simp only [cellsFrom, Bool.and_eq_true, decide_eq_true_eq] at h
    simp only [insertByte]
    split
    · split
      · simpa [cellsFrom] using ⟨h.1, h.2⟩
      · next hb =>
        simp only [cellsFrom, Bool.and_eq_true, decide_eq_true_eq]
        exact ⟨⟨hlo, hb⟩, ⟨⟨by omega, h.1.2⟩, h.2⟩⟩
    · split
      · next hak =>
        subst hak
        split
        · exact cellsFrom_mono h.2 (by omega)
        · next hb =>
          simp only [cellsFrom, Bool.and_eq_true, decide_eq_true_eq]
          exact ⟨⟨hlo, hb⟩, h.2⟩
      · simp only [cellsFrom, Bool.and_eq_true, decide_eq_true_eq]
        exact ⟨h.1, insertByte_cellsFrom a b h.2 (by omega)⟩

theorem lookupByte_insertByte (a a' : Nat) (b : Byte) : ∀ {l : List Host.Cell} {lo : Nat}, cellsFrom lo l = true →
    lookupByte a' (insertByte a b l) = if a' = a then b else lookupByte a' l
  | [], _, _ => by
    by_cases hb : b = Config.ibUnwritten <;> by_cases h : a' = a <;>
      simp [insertByte, lookupByte, hb, h, show (a = a') = (a' = a) from propext eq_comm]
  | (k, x) :: t, lo, h => by
    simp only [cellsFrom, Bool.and_eq_true, decide_eq_true_eq] at h
    simp only [insertByte]
    split
    · next hak =>
      by_cases h' : a' = a
      · subst h'
        split
        · next hb =>
          simp only [lookupByte, show k ≠ a' by omega, if_false, if_true, hb]
          exact lookupByte_below h.2 (by omega)
        · simp [lookupByte]
      · split
        · simp
        · simp [lookupByte, show ¬a = a' by omega]
    · split
      · next hak =>
        subst hak
        by_cases h' : a' = a
        · subst h'
          split
          · next hb => simpa [hb] using lookupByte_below h.2 (by omega)
          · simp [lookupByte]
        · split <;> simp [lookupByte, show ¬a = a' by omega]
      · simp only [lookupByte]
        rw [lookupByte_insertByte a a' b h.2]
        by_cases hk : k = a'
        · simp [hk, show ¬a' = a by omega]
        · simp [hk]

/-- Writing one byte keeps the canonical form. -/
theorem Memory.write_wf {m : Memory} (h : m.wf = true) (a : Nat) (b : Byte) : (m.write a b).wf = true :=
  insertByte_cellsFrom a b h (Nat.zero_le a)

/-- A byte written reads back, and every other address reads as before. -/
theorem Memory.read_write {m : Memory} (h : m.wf = true) (a a' : Nat) (b : Byte) :
    (m.write a b).read a' = if a' = a then b else m.read a' :=
  lookupByte_insertByte a a' b h

/-- Writing bytes keeps the canonical form. -/
theorem Memory.writeBytes_wf : ∀ (bs : Bytes) {m : Memory} (_ : m.wf = true) (a : Nat),
    (m.writeBytes a bs).wf = true
  | [], _, h, _ => h
  | b :: bs, _, h, a => Memory.writeBytes_wf bs (Memory.write_wf h a b) (a + 1)

/-- Bytes written read back at their addresses, and every other address reads as before. -/
theorem Memory.read_writeBytes : ∀ (bs : Bytes) {m : Memory} (_ : m.wf = true) (a k : Nat),
    (m.writeBytes a bs).read k = if a ≤ k ∧ k < a + bs.length then bs.getD (k - a) 0 else m.read k
  | [], m, _, a, k => by simp [Memory.writeBytes, show ¬(a ≤ k ∧ k < a) by omega]
  | b :: bs, m, h, a, k => by
    rw [Memory.writeBytes, Memory.read_writeBytes bs (Memory.write_wf h a b), Memory.read_write h]
    by_cases hk : k = a
    · simp [hk]
    · by_cases h1 : a + 1 ≤ k ∧ k < a + 1 + bs.length
      · obtain ⟨n, hn⟩ : ∃ n, k = a + 1 + n := ⟨k - (a + 1), by omega⟩
        subst hn
        rw [if_pos h1, if_pos (by simp only [List.length_cons]; omega), show a + 1 + n - (a + 1) = n by omega,
          show a + 1 + n - a = n + 1 by omega, List.getD_cons_succ]
      · rw [if_neg h1, if_neg hk, if_neg (by simp only [List.length_cons]; omega)]

theorem insertByte_bound (a : Nat) (b : Byte) (n : Nat) (ha : a < n) : ∀ {l : List Host.Cell},
    (∀ c ∈ l, c.1 < n) → ∀ c ∈ insertByte a b l, c.1 < n
  | [], _, c, hc => by
    simp only [insertByte] at hc
    split at hc
    · cases hc
    · simp only [List.mem_singleton] at hc; subst hc; exact ha
  | (k, x) :: t, h, c, hc => by
    have ht : ∀ c ∈ t, c.1 < n := fun c hc => h c (List.mem_cons_of_mem _ hc)
    simp only [insertByte] at hc
    split at hc
    · split at hc
      · exact h c hc
      · rcases List.mem_cons.1 hc with rfl | hc
        · exact ha
        · exact h c hc
    · split at hc
      · split at hc
        · exact ht c hc
        · rcases List.mem_cons.1 hc with rfl | hc
          · exact ha
          · exact ht c hc
      · rcases List.mem_cons.1 hc with rfl | hc
        · exact h _ List.mem_cons_self
        · exact insertByte_bound a b n ha ht c hc

/-- Writing bytes below a bound lists no address at or above it. -/
theorem Memory.writeBytes_bound (n : Nat) : ∀ (bs : Bytes) {m : Memory} (a : Nat), a + bs.length ≤ n →
    (∀ c ∈ m.cells, c.1 < n) → ∀ c ∈ (m.writeBytes a bs).cells, c.1 < n
  | [], _, _, _, h => h
  | b :: bs, m, a, hlen, h => by
    simp only [List.length_cons] at hlen
    exact Memory.writeBytes_bound n bs (a + 1) (by omega)
      (insertByte_bound a b n (by omega) h)

@[simp] theorem Memory.readBytes_length (m : Memory) (a : Nat) : ∀ n, (m.readBytes a n).length = n := by
  intro n
  induction n generalizing a with
  | zero => rfl
  | succ n ih => simp [Memory.readBytes, ih]

/-- The memory at reset is canonical. -/
theorem resetWith_ib_wf (p : Config.Params) : (State.resetWith p).ib.wf = true := rfl

end Sys2Proof.Machine
end

