-- ==== Sys2Proof/Laws/State.lean ====
section
/-! SUPPORT. One lemma per field per named update of the state, true by rfl: a proof never unfolds an update. -/

namespace Sys2Proof.Machine

/-! ### setR -/

@[simp] theorem State.setR_params (s : State) (x : DWord) : (s.setR x).params = s.params := rfl
@[simp] theorem State.setR_port (s : State) (x : DWord) : (s.setR x).port = s.port := rfl
@[simp] theorem State.setR_fault (s : State) (x : DWord) : (s.setR x).fault = s.fault := rfl
@[simp] theorem State.setR_fcode (s : State) (x : DWord) : (s.setR x).fcode = s.fcode := rfl
@[simp] theorem State.setR_fcmd (s : State) (x : DWord) : (s.setR x).fcmd = s.fcmd := rfl
@[simp] theorem State.setR_farg (s : State) (x : DWord) : (s.setR x).farg = s.farg := rfl
@[simp] theorem State.setR_r (s : State) (x : DWord) : (s.setR x).r = x := rfl
@[simp] theorem State.setR_v (s : State) (x : DWord) : (s.setR x).v = s.v := rfl
@[simp] theorem State.setR_ob (s : State) (x : DWord) : (s.setR x).ob = s.ob := rfl
@[simp] theorem State.setR_ib (s : State) (x : DWord) : (s.setR x).ib = s.ib := rfl
@[simp] theorem State.setR_rc (s : State) (x : DWord) : (s.setR x).rc = s.rc := rfl
@[simp] theorem State.setR_rcend (s : State) (x : DWord) : (s.setR x).rcend = s.rcend := rfl
@[simp] theorem State.setR_e0 (s : State) (x : DWord) : (s.setR x).e0 = s.e0 := rfl
@[simp] theorem State.setR_e1 (s : State) (x : DWord) : (s.setR x).e1 = s.e1 := rfl
@[simp] theorem State.setR_e2 (s : State) (x : DWord) : (s.setR x).e2 = s.e2 := rfl
@[simp] theorem State.setR_e3 (s : State) (x : DWord) : (s.setR x).e3 = s.e3 := rfl
@[simp] theorem State.setR_e4 (s : State) (x : DWord) : (s.setR x).e4 = s.e4 := rfl
@[simp] theorem State.setR_e5 (s : State) (x : DWord) : (s.setR x).e5 = s.e5 := rfl
@[simp] theorem State.setR_d0 (s : State) (x : DWord) : (s.setR x).d0 = s.d0 := rfl
@[simp] theorem State.setR_d1 (s : State) (x : DWord) : (s.setR x).d1 = s.d1 := rfl
@[simp] theorem State.setR_d3 (s : State) (x : DWord) : (s.setR x).d3 = s.d3 := rfl
@[simp] theorem State.setR_d4 (s : State) (x : DWord) : (s.setR x).d4 = s.d4 := rfl
@[simp] theorem State.setR_d5 (s : State) (x : DWord) : (s.setR x).d5 = s.d5 := rfl

/-! ### setV -/

@[simp] theorem State.setV_params (s : State) (x : Vector DWord 128) : (s.setV x).params = s.params := rfl
@[simp] theorem State.setV_port (s : State) (x : Vector DWord 128) : (s.setV x).port = s.port := rfl
@[simp] theorem State.setV_fault (s : State) (x : Vector DWord 128) : (s.setV x).fault = s.fault := rfl
@[simp] theorem State.setV_fcode (s : State) (x : Vector DWord 128) : (s.setV x).fcode = s.fcode := rfl
@[simp] theorem State.setV_fcmd (s : State) (x : Vector DWord 128) : (s.setV x).fcmd = s.fcmd := rfl
@[simp] theorem State.setV_farg (s : State) (x : Vector DWord 128) : (s.setV x).farg = s.farg := rfl
@[simp] theorem State.setV_r (s : State) (x : Vector DWord 128) : (s.setV x).r = s.r := rfl
@[simp] theorem State.setV_v (s : State) (x : Vector DWord 128) : (s.setV x).v = x := rfl
@[simp] theorem State.setV_ob (s : State) (x : Vector DWord 128) : (s.setV x).ob = s.ob := rfl
@[simp] theorem State.setV_ib (s : State) (x : Vector DWord 128) : (s.setV x).ib = s.ib := rfl
@[simp] theorem State.setV_rc (s : State) (x : Vector DWord 128) : (s.setV x).rc = s.rc := rfl
@[simp] theorem State.setV_rcend (s : State) (x : Vector DWord 128) : (s.setV x).rcend = s.rcend := rfl
@[simp] theorem State.setV_e0 (s : State) (x : Vector DWord 128) : (s.setV x).e0 = s.e0 := rfl
@[simp] theorem State.setV_e1 (s : State) (x : Vector DWord 128) : (s.setV x).e1 = s.e1 := rfl
@[simp] theorem State.setV_e2 (s : State) (x : Vector DWord 128) : (s.setV x).e2 = s.e2 := rfl
@[simp] theorem State.setV_e3 (s : State) (x : Vector DWord 128) : (s.setV x).e3 = s.e3 := rfl
@[simp] theorem State.setV_e4 (s : State) (x : Vector DWord 128) : (s.setV x).e4 = s.e4 := rfl
@[simp] theorem State.setV_e5 (s : State) (x : Vector DWord 128) : (s.setV x).e5 = s.e5 := rfl
@[simp] theorem State.setV_d0 (s : State) (x : Vector DWord 128) : (s.setV x).d0 = s.d0 := rfl
@[simp] theorem State.setV_d1 (s : State) (x : Vector DWord 128) : (s.setV x).d1 = s.d1 := rfl
@[simp] theorem State.setV_d3 (s : State) (x : Vector DWord 128) : (s.setV x).d3 = s.d3 := rfl
@[simp] theorem State.setV_d4 (s : State) (x : Vector DWord 128) : (s.setV x).d4 = s.d4 := rfl
@[simp] theorem State.setV_d5 (s : State) (x : Vector DWord 128) : (s.setV x).d5 = s.d5 := rfl

/-! ### setOB -/

@[simp] theorem State.setOB_params (s : State) (x : Bytes) : (s.setOB x).params = s.params := rfl
@[simp] theorem State.setOB_port (s : State) (x : Bytes) : (s.setOB x).port = s.port := rfl
@[simp] theorem State.setOB_fault (s : State) (x : Bytes) : (s.setOB x).fault = s.fault := rfl
@[simp] theorem State.setOB_fcode (s : State) (x : Bytes) : (s.setOB x).fcode = s.fcode := rfl
@[simp] theorem State.setOB_fcmd (s : State) (x : Bytes) : (s.setOB x).fcmd = s.fcmd := rfl
@[simp] theorem State.setOB_farg (s : State) (x : Bytes) : (s.setOB x).farg = s.farg := rfl
@[simp] theorem State.setOB_r (s : State) (x : Bytes) : (s.setOB x).r = s.r := rfl
@[simp] theorem State.setOB_v (s : State) (x : Bytes) : (s.setOB x).v = s.v := rfl
@[simp] theorem State.setOB_ob (s : State) (x : Bytes) : (s.setOB x).ob = x := rfl
@[simp] theorem State.setOB_ib (s : State) (x : Bytes) : (s.setOB x).ib = s.ib := rfl
@[simp] theorem State.setOB_rc (s : State) (x : Bytes) : (s.setOB x).rc = s.rc := rfl
@[simp] theorem State.setOB_rcend (s : State) (x : Bytes) : (s.setOB x).rcend = s.rcend := rfl
@[simp] theorem State.setOB_e0 (s : State) (x : Bytes) : (s.setOB x).e0 = s.e0 := rfl
@[simp] theorem State.setOB_e1 (s : State) (x : Bytes) : (s.setOB x).e1 = s.e1 := rfl
@[simp] theorem State.setOB_e2 (s : State) (x : Bytes) : (s.setOB x).e2 = s.e2 := rfl
@[simp] theorem State.setOB_e3 (s : State) (x : Bytes) : (s.setOB x).e3 = s.e3 := rfl
@[simp] theorem State.setOB_e4 (s : State) (x : Bytes) : (s.setOB x).e4 = s.e4 := rfl
@[simp] theorem State.setOB_e5 (s : State) (x : Bytes) : (s.setOB x).e5 = s.e5 := rfl
@[simp] theorem State.setOB_d0 (s : State) (x : Bytes) : (s.setOB x).d0 = s.d0 := rfl
@[simp] theorem State.setOB_d1 (s : State) (x : Bytes) : (s.setOB x).d1 = s.d1 := rfl
@[simp] theorem State.setOB_d3 (s : State) (x : Bytes) : (s.setOB x).d3 = s.d3 := rfl
@[simp] theorem State.setOB_d4 (s : State) (x : Bytes) : (s.setOB x).d4 = s.d4 := rfl
@[simp] theorem State.setOB_d5 (s : State) (x : Bytes) : (s.setOB x).d5 = s.d5 := rfl

/-! ### setIB -/

@[simp] theorem State.setIB_params (s : State) (x : Memory) : (s.setIB x).params = s.params := rfl
@[simp] theorem State.setIB_port (s : State) (x : Memory) : (s.setIB x).port = s.port := rfl
@[simp] theorem State.setIB_fault (s : State) (x : Memory) : (s.setIB x).fault = s.fault := rfl
@[simp] theorem State.setIB_fcode (s : State) (x : Memory) : (s.setIB x).fcode = s.fcode := rfl
@[simp] theorem State.setIB_fcmd (s : State) (x : Memory) : (s.setIB x).fcmd = s.fcmd := rfl
@[simp] theorem State.setIB_farg (s : State) (x : Memory) : (s.setIB x).farg = s.farg := rfl
@[simp] theorem State.setIB_r (s : State) (x : Memory) : (s.setIB x).r = s.r := rfl
@[simp] theorem State.setIB_v (s : State) (x : Memory) : (s.setIB x).v = s.v := rfl
@[simp] theorem State.setIB_ob (s : State) (x : Memory) : (s.setIB x).ob = s.ob := rfl
@[simp] theorem State.setIB_ib (s : State) (x : Memory) : (s.setIB x).ib = x := rfl
@[simp] theorem State.setIB_rc (s : State) (x : Memory) : (s.setIB x).rc = s.rc := rfl
@[simp] theorem State.setIB_rcend (s : State) (x : Memory) : (s.setIB x).rcend = s.rcend := rfl
@[simp] theorem State.setIB_e0 (s : State) (x : Memory) : (s.setIB x).e0 = s.e0 := rfl
@[simp] theorem State.setIB_e1 (s : State) (x : Memory) : (s.setIB x).e1 = s.e1 := rfl
@[simp] theorem State.setIB_e2 (s : State) (x : Memory) : (s.setIB x).e2 = s.e2 := rfl
@[simp] theorem State.setIB_e3 (s : State) (x : Memory) : (s.setIB x).e3 = s.e3 := rfl
@[simp] theorem State.setIB_e4 (s : State) (x : Memory) : (s.setIB x).e4 = s.e4 := rfl
@[simp] theorem State.setIB_e5 (s : State) (x : Memory) : (s.setIB x).e5 = s.e5 := rfl
@[simp] theorem State.setIB_d0 (s : State) (x : Memory) : (s.setIB x).d0 = s.d0 := rfl
@[simp] theorem State.setIB_d1 (s : State) (x : Memory) : (s.setIB x).d1 = s.d1 := rfl
@[simp] theorem State.setIB_d3 (s : State) (x : Memory) : (s.setIB x).d3 = s.d3 := rfl
@[simp] theorem State.setIB_d4 (s : State) (x : Memory) : (s.setIB x).d4 = s.d4 := rfl
@[simp] theorem State.setIB_d5 (s : State) (x : Memory) : (s.setIB x).d5 = s.d5 := rfl

/-! ### setRC -/

@[simp] theorem State.setRC_params (s : State) (x : Cursor) : (s.setRC x).params = s.params := rfl
@[simp] theorem State.setRC_port (s : State) (x : Cursor) : (s.setRC x).port = s.port := rfl
@[simp] theorem State.setRC_fault (s : State) (x : Cursor) : (s.setRC x).fault = s.fault := rfl
@[simp] theorem State.setRC_fcode (s : State) (x : Cursor) : (s.setRC x).fcode = s.fcode := rfl
@[simp] theorem State.setRC_fcmd (s : State) (x : Cursor) : (s.setRC x).fcmd = s.fcmd := rfl
@[simp] theorem State.setRC_farg (s : State) (x : Cursor) : (s.setRC x).farg = s.farg := rfl
@[simp] theorem State.setRC_r (s : State) (x : Cursor) : (s.setRC x).r = s.r := rfl
@[simp] theorem State.setRC_v (s : State) (x : Cursor) : (s.setRC x).v = s.v := rfl
@[simp] theorem State.setRC_ob (s : State) (x : Cursor) : (s.setRC x).ob = s.ob := rfl
@[simp] theorem State.setRC_ib (s : State) (x : Cursor) : (s.setRC x).ib = s.ib := rfl
@[simp] theorem State.setRC_rc (s : State) (x : Cursor) : (s.setRC x).rc = x := rfl
@[simp] theorem State.setRC_rcend (s : State) (x : Cursor) : (s.setRC x).rcend = s.rcend := rfl
@[simp] theorem State.setRC_e0 (s : State) (x : Cursor) : (s.setRC x).e0 = s.e0 := rfl
@[simp] theorem State.setRC_e1 (s : State) (x : Cursor) : (s.setRC x).e1 = s.e1 := rfl
@[simp] theorem State.setRC_e2 (s : State) (x : Cursor) : (s.setRC x).e2 = s.e2 := rfl
@[simp] theorem State.setRC_e3 (s : State) (x : Cursor) : (s.setRC x).e3 = s.e3 := rfl
@[simp] theorem State.setRC_e4 (s : State) (x : Cursor) : (s.setRC x).e4 = s.e4 := rfl
@[simp] theorem State.setRC_e5 (s : State) (x : Cursor) : (s.setRC x).e5 = s.e5 := rfl
@[simp] theorem State.setRC_d0 (s : State) (x : Cursor) : (s.setRC x).d0 = s.d0 := rfl
@[simp] theorem State.setRC_d1 (s : State) (x : Cursor) : (s.setRC x).d1 = s.d1 := rfl
@[simp] theorem State.setRC_d3 (s : State) (x : Cursor) : (s.setRC x).d3 = s.d3 := rfl
@[simp] theorem State.setRC_d4 (s : State) (x : Cursor) : (s.setRC x).d4 = s.d4 := rfl
@[simp] theorem State.setRC_d5 (s : State) (x : Cursor) : (s.setRC x).d5 = s.d5 := rfl

/-! ### setRCEnd -/

@[simp] theorem State.setRCEnd_params (s : State) (x : Word) : (s.setRCEnd x).params = s.params := rfl
@[simp] theorem State.setRCEnd_port (s : State) (x : Word) : (s.setRCEnd x).port = s.port := rfl
@[simp] theorem State.setRCEnd_fault (s : State) (x : Word) : (s.setRCEnd x).fault = s.fault := rfl
@[simp] theorem State.setRCEnd_fcode (s : State) (x : Word) : (s.setRCEnd x).fcode = s.fcode := rfl
@[simp] theorem State.setRCEnd_fcmd (s : State) (x : Word) : (s.setRCEnd x).fcmd = s.fcmd := rfl
@[simp] theorem State.setRCEnd_farg (s : State) (x : Word) : (s.setRCEnd x).farg = s.farg := rfl
@[simp] theorem State.setRCEnd_r (s : State) (x : Word) : (s.setRCEnd x).r = s.r := rfl
@[simp] theorem State.setRCEnd_v (s : State) (x : Word) : (s.setRCEnd x).v = s.v := rfl
@[simp] theorem State.setRCEnd_ob (s : State) (x : Word) : (s.setRCEnd x).ob = s.ob := rfl
@[simp] theorem State.setRCEnd_ib (s : State) (x : Word) : (s.setRCEnd x).ib = s.ib := rfl
@[simp] theorem State.setRCEnd_rc (s : State) (x : Word) : (s.setRCEnd x).rc = s.rc := rfl
@[simp] theorem State.setRCEnd_rcend (s : State) (x : Word) : (s.setRCEnd x).rcend = x := rfl
@[simp] theorem State.setRCEnd_e0 (s : State) (x : Word) : (s.setRCEnd x).e0 = s.e0 := rfl
@[simp] theorem State.setRCEnd_e1 (s : State) (x : Word) : (s.setRCEnd x).e1 = s.e1 := rfl
@[simp] theorem State.setRCEnd_e2 (s : State) (x : Word) : (s.setRCEnd x).e2 = s.e2 := rfl
@[simp] theorem State.setRCEnd_e3 (s : State) (x : Word) : (s.setRCEnd x).e3 = s.e3 := rfl
@[simp] theorem State.setRCEnd_e4 (s : State) (x : Word) : (s.setRCEnd x).e4 = s.e4 := rfl
@[simp] theorem State.setRCEnd_e5 (s : State) (x : Word) : (s.setRCEnd x).e5 = s.e5 := rfl
@[simp] theorem State.setRCEnd_d0 (s : State) (x : Word) : (s.setRCEnd x).d0 = s.d0 := rfl
@[simp] theorem State.setRCEnd_d1 (s : State) (x : Word) : (s.setRCEnd x).d1 = s.d1 := rfl
@[simp] theorem State.setRCEnd_d3 (s : State) (x : Word) : (s.setRCEnd x).d3 = s.d3 := rfl
@[simp] theorem State.setRCEnd_d4 (s : State) (x : Word) : (s.setRCEnd x).d4 = s.d4 := rfl
@[simp] theorem State.setRCEnd_d5 (s : State) (x : Word) : (s.setRCEnd x).d5 = s.d5 := rfl

/-! ### setE0 -/

@[simp] theorem State.setE0_params (s : State) (x : BoolEnc) : (s.setE0 x).params = s.params := rfl
@[simp] theorem State.setE0_port (s : State) (x : BoolEnc) : (s.setE0 x).port = s.port := rfl
@[simp] theorem State.setE0_fault (s : State) (x : BoolEnc) : (s.setE0 x).fault = s.fault := rfl
@[simp] theorem State.setE0_fcode (s : State) (x : BoolEnc) : (s.setE0 x).fcode = s.fcode := rfl
@[simp] theorem State.setE0_fcmd (s : State) (x : BoolEnc) : (s.setE0 x).fcmd = s.fcmd := rfl
@[simp] theorem State.setE0_farg (s : State) (x : BoolEnc) : (s.setE0 x).farg = s.farg := rfl
@[simp] theorem State.setE0_r (s : State) (x : BoolEnc) : (s.setE0 x).r = s.r := rfl
@[simp] theorem State.setE0_v (s : State) (x : BoolEnc) : (s.setE0 x).v = s.v := rfl
@[simp] theorem State.setE0_ob (s : State) (x : BoolEnc) : (s.setE0 x).ob = s.ob := rfl
@[simp] theorem State.setE0_ib (s : State) (x : BoolEnc) : (s.setE0 x).ib = s.ib := rfl
@[simp] theorem State.setE0_rc (s : State) (x : BoolEnc) : (s.setE0 x).rc = s.rc := rfl
@[simp] theorem State.setE0_rcend (s : State) (x : BoolEnc) : (s.setE0 x).rcend = s.rcend := rfl
@[simp] theorem State.setE0_e0 (s : State) (x : BoolEnc) : (s.setE0 x).e0 = x := rfl
@[simp] theorem State.setE0_e1 (s : State) (x : BoolEnc) : (s.setE0 x).e1 = s.e1 := rfl
@[simp] theorem State.setE0_e2 (s : State) (x : BoolEnc) : (s.setE0 x).e2 = s.e2 := rfl
@[simp] theorem State.setE0_e3 (s : State) (x : BoolEnc) : (s.setE0 x).e3 = s.e3 := rfl
@[simp] theorem State.setE0_e4 (s : State) (x : BoolEnc) : (s.setE0 x).e4 = s.e4 := rfl
@[simp] theorem State.setE0_e5 (s : State) (x : BoolEnc) : (s.setE0 x).e5 = s.e5 := rfl
@[simp] theorem State.setE0_d0 (s : State) (x : BoolEnc) : (s.setE0 x).d0 = s.d0 := rfl
@[simp] theorem State.setE0_d1 (s : State) (x : BoolEnc) : (s.setE0 x).d1 = s.d1 := rfl
@[simp] theorem State.setE0_d3 (s : State) (x : BoolEnc) : (s.setE0 x).d3 = s.d3 := rfl
@[simp] theorem State.setE0_d4 (s : State) (x : BoolEnc) : (s.setE0 x).d4 = s.d4 := rfl
@[simp] theorem State.setE0_d5 (s : State) (x : BoolEnc) : (s.setE0 x).d5 = s.d5 := rfl

/-! ### setE1 -/

@[simp] theorem State.setE1_params (s : State) (x : HybridEnc) : (s.setE1 x).params = s.params := rfl
@[simp] theorem State.setE1_port (s : State) (x : HybridEnc) : (s.setE1 x).port = s.port := rfl
@[simp] theorem State.setE1_fault (s : State) (x : HybridEnc) : (s.setE1 x).fault = s.fault := rfl
@[simp] theorem State.setE1_fcode (s : State) (x : HybridEnc) : (s.setE1 x).fcode = s.fcode := rfl
@[simp] theorem State.setE1_fcmd (s : State) (x : HybridEnc) : (s.setE1 x).fcmd = s.fcmd := rfl
@[simp] theorem State.setE1_farg (s : State) (x : HybridEnc) : (s.setE1 x).farg = s.farg := rfl
@[simp] theorem State.setE1_r (s : State) (x : HybridEnc) : (s.setE1 x).r = s.r := rfl
@[simp] theorem State.setE1_v (s : State) (x : HybridEnc) : (s.setE1 x).v = s.v := rfl
@[simp] theorem State.setE1_ob (s : State) (x : HybridEnc) : (s.setE1 x).ob = s.ob := rfl
@[simp] theorem State.setE1_ib (s : State) (x : HybridEnc) : (s.setE1 x).ib = s.ib := rfl
@[simp] theorem State.setE1_rc (s : State) (x : HybridEnc) : (s.setE1 x).rc = s.rc := rfl
@[simp] theorem State.setE1_rcend (s : State) (x : HybridEnc) : (s.setE1 x).rcend = s.rcend := rfl
@[simp] theorem State.setE1_e0 (s : State) (x : HybridEnc) : (s.setE1 x).e0 = s.e0 := rfl
@[simp] theorem State.setE1_e1 (s : State) (x : HybridEnc) : (s.setE1 x).e1 = x := rfl
@[simp] theorem State.setE1_e2 (s : State) (x : HybridEnc) : (s.setE1 x).e2 = s.e2 := rfl
@[simp] theorem State.setE1_e3 (s : State) (x : HybridEnc) : (s.setE1 x).e3 = s.e3 := rfl
@[simp] theorem State.setE1_e4 (s : State) (x : HybridEnc) : (s.setE1 x).e4 = s.e4 := rfl
@[simp] theorem State.setE1_e5 (s : State) (x : HybridEnc) : (s.setE1 x).e5 = s.e5 := rfl
@[simp] theorem State.setE1_d0 (s : State) (x : HybridEnc) : (s.setE1 x).d0 = s.d0 := rfl
@[simp] theorem State.setE1_d1 (s : State) (x : HybridEnc) : (s.setE1 x).d1 = s.d1 := rfl
@[simp] theorem State.setE1_d3 (s : State) (x : HybridEnc) : (s.setE1 x).d3 = s.d3 := rfl
@[simp] theorem State.setE1_d4 (s : State) (x : HybridEnc) : (s.setE1 x).d4 = s.d4 := rfl
@[simp] theorem State.setE1_d5 (s : State) (x : HybridEnc) : (s.setE1 x).d5 = s.d5 := rfl

/-! ### setE2 -/

@[simp] theorem State.setE2_params (s : State) (x : SelfEnc) : (s.setE2 x).params = s.params := rfl
@[simp] theorem State.setE2_port (s : State) (x : SelfEnc) : (s.setE2 x).port = s.port := rfl
@[simp] theorem State.setE2_fault (s : State) (x : SelfEnc) : (s.setE2 x).fault = s.fault := rfl
@[simp] theorem State.setE2_fcode (s : State) (x : SelfEnc) : (s.setE2 x).fcode = s.fcode := rfl
@[simp] theorem State.setE2_fcmd (s : State) (x : SelfEnc) : (s.setE2 x).fcmd = s.fcmd := rfl
@[simp] theorem State.setE2_farg (s : State) (x : SelfEnc) : (s.setE2 x).farg = s.farg := rfl
@[simp] theorem State.setE2_r (s : State) (x : SelfEnc) : (s.setE2 x).r = s.r := rfl
@[simp] theorem State.setE2_v (s : State) (x : SelfEnc) : (s.setE2 x).v = s.v := rfl
@[simp] theorem State.setE2_ob (s : State) (x : SelfEnc) : (s.setE2 x).ob = s.ob := rfl
@[simp] theorem State.setE2_ib (s : State) (x : SelfEnc) : (s.setE2 x).ib = s.ib := rfl
@[simp] theorem State.setE2_rc (s : State) (x : SelfEnc) : (s.setE2 x).rc = s.rc := rfl
@[simp] theorem State.setE2_rcend (s : State) (x : SelfEnc) : (s.setE2 x).rcend = s.rcend := rfl
@[simp] theorem State.setE2_e0 (s : State) (x : SelfEnc) : (s.setE2 x).e0 = s.e0 := rfl
@[simp] theorem State.setE2_e1 (s : State) (x : SelfEnc) : (s.setE2 x).e1 = s.e1 := rfl
@[simp] theorem State.setE2_e2 (s : State) (x : SelfEnc) : (s.setE2 x).e2 = x := rfl
@[simp] theorem State.setE2_e3 (s : State) (x : SelfEnc) : (s.setE2 x).e3 = s.e3 := rfl
@[simp] theorem State.setE2_e4 (s : State) (x : SelfEnc) : (s.setE2 x).e4 = s.e4 := rfl
@[simp] theorem State.setE2_e5 (s : State) (x : SelfEnc) : (s.setE2 x).e5 = s.e5 := rfl
@[simp] theorem State.setE2_d0 (s : State) (x : SelfEnc) : (s.setE2 x).d0 = s.d0 := rfl
@[simp] theorem State.setE2_d1 (s : State) (x : SelfEnc) : (s.setE2 x).d1 = s.d1 := rfl
@[simp] theorem State.setE2_d3 (s : State) (x : SelfEnc) : (s.setE2 x).d3 = s.d3 := rfl
@[simp] theorem State.setE2_d4 (s : State) (x : SelfEnc) : (s.setE2 x).d4 = s.d4 := rfl
@[simp] theorem State.setE2_d5 (s : State) (x : SelfEnc) : (s.setE2 x).d5 = s.d5 := rfl

/-! ### setE3 -/

@[simp] theorem State.setE3_params (s : State) (x : SelfEnc) : (s.setE3 x).params = s.params := rfl
@[simp] theorem State.setE3_port (s : State) (x : SelfEnc) : (s.setE3 x).port = s.port := rfl
@[simp] theorem State.setE3_fault (s : State) (x : SelfEnc) : (s.setE3 x).fault = s.fault := rfl
@[simp] theorem State.setE3_fcode (s : State) (x : SelfEnc) : (s.setE3 x).fcode = s.fcode := rfl
@[simp] theorem State.setE3_fcmd (s : State) (x : SelfEnc) : (s.setE3 x).fcmd = s.fcmd := rfl
@[simp] theorem State.setE3_farg (s : State) (x : SelfEnc) : (s.setE3 x).farg = s.farg := rfl
@[simp] theorem State.setE3_r (s : State) (x : SelfEnc) : (s.setE3 x).r = s.r := rfl
@[simp] theorem State.setE3_v (s : State) (x : SelfEnc) : (s.setE3 x).v = s.v := rfl
@[simp] theorem State.setE3_ob (s : State) (x : SelfEnc) : (s.setE3 x).ob = s.ob := rfl
@[simp] theorem State.setE3_ib (s : State) (x : SelfEnc) : (s.setE3 x).ib = s.ib := rfl
@[simp] theorem State.setE3_rc (s : State) (x : SelfEnc) : (s.setE3 x).rc = s.rc := rfl
@[simp] theorem State.setE3_rcend (s : State) (x : SelfEnc) : (s.setE3 x).rcend = s.rcend := rfl
@[simp] theorem State.setE3_e0 (s : State) (x : SelfEnc) : (s.setE3 x).e0 = s.e0 := rfl
@[simp] theorem State.setE3_e1 (s : State) (x : SelfEnc) : (s.setE3 x).e1 = s.e1 := rfl
@[simp] theorem State.setE3_e2 (s : State) (x : SelfEnc) : (s.setE3 x).e2 = s.e2 := rfl
@[simp] theorem State.setE3_e3 (s : State) (x : SelfEnc) : (s.setE3 x).e3 = x := rfl
@[simp] theorem State.setE3_e4 (s : State) (x : SelfEnc) : (s.setE3 x).e4 = s.e4 := rfl
@[simp] theorem State.setE3_e5 (s : State) (x : SelfEnc) : (s.setE3 x).e5 = s.e5 := rfl
@[simp] theorem State.setE3_d0 (s : State) (x : SelfEnc) : (s.setE3 x).d0 = s.d0 := rfl
@[simp] theorem State.setE3_d1 (s : State) (x : SelfEnc) : (s.setE3 x).d1 = s.d1 := rfl
@[simp] theorem State.setE3_d3 (s : State) (x : SelfEnc) : (s.setE3 x).d3 = s.d3 := rfl
@[simp] theorem State.setE3_d4 (s : State) (x : SelfEnc) : (s.setE3 x).d4 = s.d4 := rfl
@[simp] theorem State.setE3_d5 (s : State) (x : SelfEnc) : (s.setE3 x).d5 = s.d5 := rfl

/-! ### setE4 -/

@[simp] theorem State.setE4_params (s : State) (x : DeltaEnc 32) : (s.setE4 x).params = s.params := rfl
@[simp] theorem State.setE4_port (s : State) (x : DeltaEnc 32) : (s.setE4 x).port = s.port := rfl
@[simp] theorem State.setE4_fault (s : State) (x : DeltaEnc 32) : (s.setE4 x).fault = s.fault := rfl
@[simp] theorem State.setE4_fcode (s : State) (x : DeltaEnc 32) : (s.setE4 x).fcode = s.fcode := rfl
@[simp] theorem State.setE4_fcmd (s : State) (x : DeltaEnc 32) : (s.setE4 x).fcmd = s.fcmd := rfl
@[simp] theorem State.setE4_farg (s : State) (x : DeltaEnc 32) : (s.setE4 x).farg = s.farg := rfl
@[simp] theorem State.setE4_r (s : State) (x : DeltaEnc 32) : (s.setE4 x).r = s.r := rfl
@[simp] theorem State.setE4_v (s : State) (x : DeltaEnc 32) : (s.setE4 x).v = s.v := rfl
@[simp] theorem State.setE4_ob (s : State) (x : DeltaEnc 32) : (s.setE4 x).ob = s.ob := rfl
@[simp] theorem State.setE4_ib (s : State) (x : DeltaEnc 32) : (s.setE4 x).ib = s.ib := rfl
@[simp] theorem State.setE4_rc (s : State) (x : DeltaEnc 32) : (s.setE4 x).rc = s.rc := rfl
@[simp] theorem State.setE4_rcend (s : State) (x : DeltaEnc 32) : (s.setE4 x).rcend = s.rcend := rfl
@[simp] theorem State.setE4_e0 (s : State) (x : DeltaEnc 32) : (s.setE4 x).e0 = s.e0 := rfl
@[simp] theorem State.setE4_e1 (s : State) (x : DeltaEnc 32) : (s.setE4 x).e1 = s.e1 := rfl
@[simp] theorem State.setE4_e2 (s : State) (x : DeltaEnc 32) : (s.setE4 x).e2 = s.e2 := rfl
@[simp] theorem State.setE4_e3 (s : State) (x : DeltaEnc 32) : (s.setE4 x).e3 = s.e3 := rfl
@[simp] theorem State.setE4_e4 (s : State) (x : DeltaEnc 32) : (s.setE4 x).e4 = x := rfl
@[simp] theorem State.setE4_e5 (s : State) (x : DeltaEnc 32) : (s.setE4 x).e5 = s.e5 := rfl
@[simp] theorem State.setE4_d0 (s : State) (x : DeltaEnc 32) : (s.setE4 x).d0 = s.d0 := rfl
@[simp] theorem State.setE4_d1 (s : State) (x : DeltaEnc 32) : (s.setE4 x).d1 = s.d1 := rfl
@[simp] theorem State.setE4_d3 (s : State) (x : DeltaEnc 32) : (s.setE4 x).d3 = s.d3 := rfl
@[simp] theorem State.setE4_d4 (s : State) (x : DeltaEnc 32) : (s.setE4 x).d4 = s.d4 := rfl
@[simp] theorem State.setE4_d5 (s : State) (x : DeltaEnc 32) : (s.setE4 x).d5 = s.d5 := rfl

/-! ### setE5 -/

@[simp] theorem State.setE5_params (s : State) (x : DeltaEnc 64) : (s.setE5 x).params = s.params := rfl
@[simp] theorem State.setE5_port (s : State) (x : DeltaEnc 64) : (s.setE5 x).port = s.port := rfl
@[simp] theorem State.setE5_fault (s : State) (x : DeltaEnc 64) : (s.setE5 x).fault = s.fault := rfl
@[simp] theorem State.setE5_fcode (s : State) (x : DeltaEnc 64) : (s.setE5 x).fcode = s.fcode := rfl
@[simp] theorem State.setE5_fcmd (s : State) (x : DeltaEnc 64) : (s.setE5 x).fcmd = s.fcmd := rfl
@[simp] theorem State.setE5_farg (s : State) (x : DeltaEnc 64) : (s.setE5 x).farg = s.farg := rfl
@[simp] theorem State.setE5_r (s : State) (x : DeltaEnc 64) : (s.setE5 x).r = s.r := rfl
@[simp] theorem State.setE5_v (s : State) (x : DeltaEnc 64) : (s.setE5 x).v = s.v := rfl
@[simp] theorem State.setE5_ob (s : State) (x : DeltaEnc 64) : (s.setE5 x).ob = s.ob := rfl
@[simp] theorem State.setE5_ib (s : State) (x : DeltaEnc 64) : (s.setE5 x).ib = s.ib := rfl
@[simp] theorem State.setE5_rc (s : State) (x : DeltaEnc 64) : (s.setE5 x).rc = s.rc := rfl
@[simp] theorem State.setE5_rcend (s : State) (x : DeltaEnc 64) : (s.setE5 x).rcend = s.rcend := rfl
@[simp] theorem State.setE5_e0 (s : State) (x : DeltaEnc 64) : (s.setE5 x).e0 = s.e0 := rfl
@[simp] theorem State.setE5_e1 (s : State) (x : DeltaEnc 64) : (s.setE5 x).e1 = s.e1 := rfl
@[simp] theorem State.setE5_e2 (s : State) (x : DeltaEnc 64) : (s.setE5 x).e2 = s.e2 := rfl
@[simp] theorem State.setE5_e3 (s : State) (x : DeltaEnc 64) : (s.setE5 x).e3 = s.e3 := rfl
@[simp] theorem State.setE5_e4 (s : State) (x : DeltaEnc 64) : (s.setE5 x).e4 = s.e4 := rfl
@[simp] theorem State.setE5_e5 (s : State) (x : DeltaEnc 64) : (s.setE5 x).e5 = x := rfl
@[simp] theorem State.setE5_d0 (s : State) (x : DeltaEnc 64) : (s.setE5 x).d0 = s.d0 := rfl
@[simp] theorem State.setE5_d1 (s : State) (x : DeltaEnc 64) : (s.setE5 x).d1 = s.d1 := rfl
@[simp] theorem State.setE5_d3 (s : State) (x : DeltaEnc 64) : (s.setE5 x).d3 = s.d3 := rfl
@[simp] theorem State.setE5_d4 (s : State) (x : DeltaEnc 64) : (s.setE5 x).d4 = s.d4 := rfl
@[simp] theorem State.setE5_d5 (s : State) (x : DeltaEnc 64) : (s.setE5 x).d5 = s.d5 := rfl

/-! ### setD0 -/

@[simp] theorem State.setD0_params (s : State) (x : BoolDec) : (s.setD0 x).params = s.params := rfl
@[simp] theorem State.setD0_port (s : State) (x : BoolDec) : (s.setD0 x).port = s.port := rfl
@[simp] theorem State.setD0_fault (s : State) (x : BoolDec) : (s.setD0 x).fault = s.fault := rfl
@[simp] theorem State.setD0_fcode (s : State) (x : BoolDec) : (s.setD0 x).fcode = s.fcode := rfl
@[simp] theorem State.setD0_fcmd (s : State) (x : BoolDec) : (s.setD0 x).fcmd = s.fcmd := rfl
@[simp] theorem State.setD0_farg (s : State) (x : BoolDec) : (s.setD0 x).farg = s.farg := rfl
@[simp] theorem State.setD0_r (s : State) (x : BoolDec) : (s.setD0 x).r = s.r := rfl
@[simp] theorem State.setD0_v (s : State) (x : BoolDec) : (s.setD0 x).v = s.v := rfl
@[simp] theorem State.setD0_ob (s : State) (x : BoolDec) : (s.setD0 x).ob = s.ob := rfl
@[simp] theorem State.setD0_ib (s : State) (x : BoolDec) : (s.setD0 x).ib = s.ib := rfl
@[simp] theorem State.setD0_rc (s : State) (x : BoolDec) : (s.setD0 x).rc = s.rc := rfl
@[simp] theorem State.setD0_rcend (s : State) (x : BoolDec) : (s.setD0 x).rcend = s.rcend := rfl
@[simp] theorem State.setD0_e0 (s : State) (x : BoolDec) : (s.setD0 x).e0 = s.e0 := rfl
@[simp] theorem State.setD0_e1 (s : State) (x : BoolDec) : (s.setD0 x).e1 = s.e1 := rfl
@[simp] theorem State.setD0_e2 (s : State) (x : BoolDec) : (s.setD0 x).e2 = s.e2 := rfl
@[simp] theorem State.setD0_e3 (s : State) (x : BoolDec) : (s.setD0 x).e3 = s.e3 := rfl
@[simp] theorem State.setD0_e4 (s : State) (x : BoolDec) : (s.setD0 x).e4 = s.e4 := rfl
@[simp] theorem State.setD0_e5 (s : State) (x : BoolDec) : (s.setD0 x).e5 = s.e5 := rfl
@[simp] theorem State.setD0_d0 (s : State) (x : BoolDec) : (s.setD0 x).d0 = x := rfl
@[simp] theorem State.setD0_d1 (s : State) (x : BoolDec) : (s.setD0 x).d1 = s.d1 := rfl
@[simp] theorem State.setD0_d3 (s : State) (x : BoolDec) : (s.setD0 x).d3 = s.d3 := rfl
@[simp] theorem State.setD0_d4 (s : State) (x : BoolDec) : (s.setD0 x).d4 = s.d4 := rfl
@[simp] theorem State.setD0_d5 (s : State) (x : BoolDec) : (s.setD0 x).d5 = s.d5 := rfl

/-! ### setD1 -/

@[simp] theorem State.setD1_params (s : State) (x : HybridDec) : (s.setD1 x).params = s.params := rfl
@[simp] theorem State.setD1_port (s : State) (x : HybridDec) : (s.setD1 x).port = s.port := rfl
@[simp] theorem State.setD1_fault (s : State) (x : HybridDec) : (s.setD1 x).fault = s.fault := rfl
@[simp] theorem State.setD1_fcode (s : State) (x : HybridDec) : (s.setD1 x).fcode = s.fcode := rfl
@[simp] theorem State.setD1_fcmd (s : State) (x : HybridDec) : (s.setD1 x).fcmd = s.fcmd := rfl
@[simp] theorem State.setD1_farg (s : State) (x : HybridDec) : (s.setD1 x).farg = s.farg := rfl
@[simp] theorem State.setD1_r (s : State) (x : HybridDec) : (s.setD1 x).r = s.r := rfl
@[simp] theorem State.setD1_v (s : State) (x : HybridDec) : (s.setD1 x).v = s.v := rfl
@[simp] theorem State.setD1_ob (s : State) (x : HybridDec) : (s.setD1 x).ob = s.ob := rfl
@[simp] theorem State.setD1_ib (s : State) (x : HybridDec) : (s.setD1 x).ib = s.ib := rfl
@[simp] theorem State.setD1_rc (s : State) (x : HybridDec) : (s.setD1 x).rc = s.rc := rfl
@[simp] theorem State.setD1_rcend (s : State) (x : HybridDec) : (s.setD1 x).rcend = s.rcend := rfl
@[simp] theorem State.setD1_e0 (s : State) (x : HybridDec) : (s.setD1 x).e0 = s.e0 := rfl
@[simp] theorem State.setD1_e1 (s : State) (x : HybridDec) : (s.setD1 x).e1 = s.e1 := rfl
@[simp] theorem State.setD1_e2 (s : State) (x : HybridDec) : (s.setD1 x).e2 = s.e2 := rfl
@[simp] theorem State.setD1_e3 (s : State) (x : HybridDec) : (s.setD1 x).e3 = s.e3 := rfl
@[simp] theorem State.setD1_e4 (s : State) (x : HybridDec) : (s.setD1 x).e4 = s.e4 := rfl
@[simp] theorem State.setD1_e5 (s : State) (x : HybridDec) : (s.setD1 x).e5 = s.e5 := rfl
@[simp] theorem State.setD1_d0 (s : State) (x : HybridDec) : (s.setD1 x).d0 = s.d0 := rfl
@[simp] theorem State.setD1_d1 (s : State) (x : HybridDec) : (s.setD1 x).d1 = x := rfl
@[simp] theorem State.setD1_d3 (s : State) (x : HybridDec) : (s.setD1 x).d3 = s.d3 := rfl
@[simp] theorem State.setD1_d4 (s : State) (x : HybridDec) : (s.setD1 x).d4 = s.d4 := rfl
@[simp] theorem State.setD1_d5 (s : State) (x : HybridDec) : (s.setD1 x).d5 = s.d5 := rfl

/-! ### setD3 -/

@[simp] theorem State.setD3_params (s : State) (x : HybridDec) : (s.setD3 x).params = s.params := rfl
@[simp] theorem State.setD3_port (s : State) (x : HybridDec) : (s.setD3 x).port = s.port := rfl
@[simp] theorem State.setD3_fault (s : State) (x : HybridDec) : (s.setD3 x).fault = s.fault := rfl
@[simp] theorem State.setD3_fcode (s : State) (x : HybridDec) : (s.setD3 x).fcode = s.fcode := rfl
@[simp] theorem State.setD3_fcmd (s : State) (x : HybridDec) : (s.setD3 x).fcmd = s.fcmd := rfl
@[simp] theorem State.setD3_farg (s : State) (x : HybridDec) : (s.setD3 x).farg = s.farg := rfl
@[simp] theorem State.setD3_r (s : State) (x : HybridDec) : (s.setD3 x).r = s.r := rfl
@[simp] theorem State.setD3_v (s : State) (x : HybridDec) : (s.setD3 x).v = s.v := rfl
@[simp] theorem State.setD3_ob (s : State) (x : HybridDec) : (s.setD3 x).ob = s.ob := rfl
@[simp] theorem State.setD3_ib (s : State) (x : HybridDec) : (s.setD3 x).ib = s.ib := rfl
@[simp] theorem State.setD3_rc (s : State) (x : HybridDec) : (s.setD3 x).rc = s.rc := rfl
@[simp] theorem State.setD3_rcend (s : State) (x : HybridDec) : (s.setD3 x).rcend = s.rcend := rfl
@[simp] theorem State.setD3_e0 (s : State) (x : HybridDec) : (s.setD3 x).e0 = s.e0 := rfl
@[simp] theorem State.setD3_e1 (s : State) (x : HybridDec) : (s.setD3 x).e1 = s.e1 := rfl
@[simp] theorem State.setD3_e2 (s : State) (x : HybridDec) : (s.setD3 x).e2 = s.e2 := rfl
@[simp] theorem State.setD3_e3 (s : State) (x : HybridDec) : (s.setD3 x).e3 = s.e3 := rfl
@[simp] theorem State.setD3_e4 (s : State) (x : HybridDec) : (s.setD3 x).e4 = s.e4 := rfl
@[simp] theorem State.setD3_e5 (s : State) (x : HybridDec) : (s.setD3 x).e5 = s.e5 := rfl
@[simp] theorem State.setD3_d0 (s : State) (x : HybridDec) : (s.setD3 x).d0 = s.d0 := rfl
@[simp] theorem State.setD3_d1 (s : State) (x : HybridDec) : (s.setD3 x).d1 = s.d1 := rfl
@[simp] theorem State.setD3_d3 (s : State) (x : HybridDec) : (s.setD3 x).d3 = x := rfl
@[simp] theorem State.setD3_d4 (s : State) (x : HybridDec) : (s.setD3 x).d4 = s.d4 := rfl
@[simp] theorem State.setD3_d5 (s : State) (x : HybridDec) : (s.setD3 x).d5 = s.d5 := rfl

/-! ### setD4 -/

@[simp] theorem State.setD4_params (s : State) (x : DeltaDec 32) : (s.setD4 x).params = s.params := rfl
@[simp] theorem State.setD4_port (s : State) (x : DeltaDec 32) : (s.setD4 x).port = s.port := rfl
@[simp] theorem State.setD4_fault (s : State) (x : DeltaDec 32) : (s.setD4 x).fault = s.fault := rfl
@[simp] theorem State.setD4_fcode (s : State) (x : DeltaDec 32) : (s.setD4 x).fcode = s.fcode := rfl
@[simp] theorem State.setD4_fcmd (s : State) (x : DeltaDec 32) : (s.setD4 x).fcmd = s.fcmd := rfl
@[simp] theorem State.setD4_farg (s : State) (x : DeltaDec 32) : (s.setD4 x).farg = s.farg := rfl
@[simp] theorem State.setD4_r (s : State) (x : DeltaDec 32) : (s.setD4 x).r = s.r := rfl
@[simp] theorem State.setD4_v (s : State) (x : DeltaDec 32) : (s.setD4 x).v = s.v := rfl
@[simp] theorem State.setD4_ob (s : State) (x : DeltaDec 32) : (s.setD4 x).ob = s.ob := rfl
@[simp] theorem State.setD4_ib (s : State) (x : DeltaDec 32) : (s.setD4 x).ib = s.ib := rfl
@[simp] theorem State.setD4_rc (s : State) (x : DeltaDec 32) : (s.setD4 x).rc = s.rc := rfl
@[simp] theorem State.setD4_rcend (s : State) (x : DeltaDec 32) : (s.setD4 x).rcend = s.rcend := rfl
@[simp] theorem State.setD4_e0 (s : State) (x : DeltaDec 32) : (s.setD4 x).e0 = s.e0 := rfl
@[simp] theorem State.setD4_e1 (s : State) (x : DeltaDec 32) : (s.setD4 x).e1 = s.e1 := rfl
@[simp] theorem State.setD4_e2 (s : State) (x : DeltaDec 32) : (s.setD4 x).e2 = s.e2 := rfl
@[simp] theorem State.setD4_e3 (s : State) (x : DeltaDec 32) : (s.setD4 x).e3 = s.e3 := rfl
@[simp] theorem State.setD4_e4 (s : State) (x : DeltaDec 32) : (s.setD4 x).e4 = s.e4 := rfl
@[simp] theorem State.setD4_e5 (s : State) (x : DeltaDec 32) : (s.setD4 x).e5 = s.e5 := rfl
@[simp] theorem State.setD4_d0 (s : State) (x : DeltaDec 32) : (s.setD4 x).d0 = s.d0 := rfl
@[simp] theorem State.setD4_d1 (s : State) (x : DeltaDec 32) : (s.setD4 x).d1 = s.d1 := rfl
@[simp] theorem State.setD4_d3 (s : State) (x : DeltaDec 32) : (s.setD4 x).d3 = s.d3 := rfl
@[simp] theorem State.setD4_d4 (s : State) (x : DeltaDec 32) : (s.setD4 x).d4 = x := rfl
@[simp] theorem State.setD4_d5 (s : State) (x : DeltaDec 32) : (s.setD4 x).d5 = s.d5 := rfl

/-! ### setD5 -/

@[simp] theorem State.setD5_params (s : State) (x : DeltaDec 64) : (s.setD5 x).params = s.params := rfl
@[simp] theorem State.setD5_port (s : State) (x : DeltaDec 64) : (s.setD5 x).port = s.port := rfl
@[simp] theorem State.setD5_fault (s : State) (x : DeltaDec 64) : (s.setD5 x).fault = s.fault := rfl
@[simp] theorem State.setD5_fcode (s : State) (x : DeltaDec 64) : (s.setD5 x).fcode = s.fcode := rfl
@[simp] theorem State.setD5_fcmd (s : State) (x : DeltaDec 64) : (s.setD5 x).fcmd = s.fcmd := rfl
@[simp] theorem State.setD5_farg (s : State) (x : DeltaDec 64) : (s.setD5 x).farg = s.farg := rfl
@[simp] theorem State.setD5_r (s : State) (x : DeltaDec 64) : (s.setD5 x).r = s.r := rfl
@[simp] theorem State.setD5_v (s : State) (x : DeltaDec 64) : (s.setD5 x).v = s.v := rfl
@[simp] theorem State.setD5_ob (s : State) (x : DeltaDec 64) : (s.setD5 x).ob = s.ob := rfl
@[simp] theorem State.setD5_ib (s : State) (x : DeltaDec 64) : (s.setD5 x).ib = s.ib := rfl
@[simp] theorem State.setD5_rc (s : State) (x : DeltaDec 64) : (s.setD5 x).rc = s.rc := rfl
@[simp] theorem State.setD5_rcend (s : State) (x : DeltaDec 64) : (s.setD5 x).rcend = s.rcend := rfl
@[simp] theorem State.setD5_e0 (s : State) (x : DeltaDec 64) : (s.setD5 x).e0 = s.e0 := rfl
@[simp] theorem State.setD5_e1 (s : State) (x : DeltaDec 64) : (s.setD5 x).e1 = s.e1 := rfl
@[simp] theorem State.setD5_e2 (s : State) (x : DeltaDec 64) : (s.setD5 x).e2 = s.e2 := rfl
@[simp] theorem State.setD5_e3 (s : State) (x : DeltaDec 64) : (s.setD5 x).e3 = s.e3 := rfl
@[simp] theorem State.setD5_e4 (s : State) (x : DeltaDec 64) : (s.setD5 x).e4 = s.e4 := rfl
@[simp] theorem State.setD5_e5 (s : State) (x : DeltaDec 64) : (s.setD5 x).e5 = s.e5 := rfl
@[simp] theorem State.setD5_d0 (s : State) (x : DeltaDec 64) : (s.setD5 x).d0 = s.d0 := rfl
@[simp] theorem State.setD5_d1 (s : State) (x : DeltaDec 64) : (s.setD5 x).d1 = s.d1 := rfl
@[simp] theorem State.setD5_d3 (s : State) (x : DeltaDec 64) : (s.setD5 x).d3 = s.d3 := rfl
@[simp] theorem State.setD5_d4 (s : State) (x : DeltaDec 64) : (s.setD5 x).d4 = s.d4 := rfl
@[simp] theorem State.setD5_d5 (s : State) (x : DeltaDec 64) : (s.setD5 x).d5 = x := rfl

/-! ### setPort -/

@[simp] theorem State.setPort_params (s : State) (x : List HostAction) : (s.setPort x).params = s.params := rfl
@[simp] theorem State.setPort_port (s : State) (x : List HostAction) : (s.setPort x).port = x := rfl
@[simp] theorem State.setPort_fault (s : State) (x : List HostAction) : (s.setPort x).fault = s.fault := rfl
@[simp] theorem State.setPort_fcode (s : State) (x : List HostAction) : (s.setPort x).fcode = s.fcode := rfl
@[simp] theorem State.setPort_fcmd (s : State) (x : List HostAction) : (s.setPort x).fcmd = s.fcmd := rfl
@[simp] theorem State.setPort_farg (s : State) (x : List HostAction) : (s.setPort x).farg = s.farg := rfl
@[simp] theorem State.setPort_r (s : State) (x : List HostAction) : (s.setPort x).r = s.r := rfl
@[simp] theorem State.setPort_v (s : State) (x : List HostAction) : (s.setPort x).v = s.v := rfl
@[simp] theorem State.setPort_ob (s : State) (x : List HostAction) : (s.setPort x).ob = s.ob := rfl
@[simp] theorem State.setPort_ib (s : State) (x : List HostAction) : (s.setPort x).ib = s.ib := rfl
@[simp] theorem State.setPort_rc (s : State) (x : List HostAction) : (s.setPort x).rc = s.rc := rfl
@[simp] theorem State.setPort_rcend (s : State) (x : List HostAction) : (s.setPort x).rcend = s.rcend := rfl
@[simp] theorem State.setPort_e0 (s : State) (x : List HostAction) : (s.setPort x).e0 = s.e0 := rfl
@[simp] theorem State.setPort_e1 (s : State) (x : List HostAction) : (s.setPort x).e1 = s.e1 := rfl
@[simp] theorem State.setPort_e2 (s : State) (x : List HostAction) : (s.setPort x).e2 = s.e2 := rfl
@[simp] theorem State.setPort_e3 (s : State) (x : List HostAction) : (s.setPort x).e3 = s.e3 := rfl
@[simp] theorem State.setPort_e4 (s : State) (x : List HostAction) : (s.setPort x).e4 = s.e4 := rfl
@[simp] theorem State.setPort_e5 (s : State) (x : List HostAction) : (s.setPort x).e5 = s.e5 := rfl
@[simp] theorem State.setPort_d0 (s : State) (x : List HostAction) : (s.setPort x).d0 = s.d0 := rfl
@[simp] theorem State.setPort_d1 (s : State) (x : List HostAction) : (s.setPort x).d1 = s.d1 := rfl
@[simp] theorem State.setPort_d3 (s : State) (x : List HostAction) : (s.setPort x).d3 = s.d3 := rfl
@[simp] theorem State.setPort_d4 (s : State) (x : List HostAction) : (s.setPort x).d4 = s.d4 := rfl
@[simp] theorem State.setPort_d5 (s : State) (x : List HostAction) : (s.setPort x).d5 = s.d5 := rfl

/-! ### detachDecoders -/

@[simp] theorem State.detachDecoders_params (s : State) : s.detachDecoders.params = s.params := rfl
@[simp] theorem State.detachDecoders_port (s : State) : s.detachDecoders.port = s.port := rfl
@[simp] theorem State.detachDecoders_fault (s : State) : s.detachDecoders.fault = s.fault := rfl
@[simp] theorem State.detachDecoders_fcode (s : State) : s.detachDecoders.fcode = s.fcode := rfl
@[simp] theorem State.detachDecoders_fcmd (s : State) : s.detachDecoders.fcmd = s.fcmd := rfl
@[simp] theorem State.detachDecoders_farg (s : State) : s.detachDecoders.farg = s.farg := rfl
@[simp] theorem State.detachDecoders_r (s : State) : s.detachDecoders.r = s.r := rfl
@[simp] theorem State.detachDecoders_v (s : State) : s.detachDecoders.v = s.v := rfl
@[simp] theorem State.detachDecoders_ob (s : State) : s.detachDecoders.ob = s.ob := rfl
@[simp] theorem State.detachDecoders_ib (s : State) : s.detachDecoders.ib = s.ib := rfl
@[simp] theorem State.detachDecoders_rc (s : State) : s.detachDecoders.rc = s.rc := rfl
@[simp] theorem State.detachDecoders_rcend (s : State) : s.detachDecoders.rcend = s.rcend := rfl
@[simp] theorem State.detachDecoders_e0 (s : State) : s.detachDecoders.e0 = s.e0 := rfl
@[simp] theorem State.detachDecoders_e1 (s : State) : s.detachDecoders.e1 = s.e1 := rfl
@[simp] theorem State.detachDecoders_e2 (s : State) : s.detachDecoders.e2 = s.e2 := rfl
@[simp] theorem State.detachDecoders_e3 (s : State) : s.detachDecoders.e3 = s.e3 := rfl
@[simp] theorem State.detachDecoders_e4 (s : State) : s.detachDecoders.e4 = s.e4 := rfl
@[simp] theorem State.detachDecoders_e5 (s : State) : s.detachDecoders.e5 = s.e5 := rfl
@[simp] theorem State.detachDecoders_d0 (s : State) : s.detachDecoders.d0 = { s.d0 with act := false } := rfl
@[simp] theorem State.detachDecoders_d1 (s : State) : s.detachDecoders.d1 = { s.d1 with act := false } := rfl
@[simp] theorem State.detachDecoders_d3 (s : State) : s.detachDecoders.d3 = { s.d3 with act := false } := rfl
@[simp] theorem State.detachDecoders_d4 (s : State) : s.detachDecoders.d4 = { s.d4 with act := false } := rfl
@[simp] theorem State.detachDecoders_d5 (s : State) : s.detachDecoders.d5 = { s.d5 with act := false } := rfl

/-! ### enterFault -/

@[simp] theorem enterFault_params (k : FaultCode) (c : Command) (s : State) : (enterFault k c s).params = s.params := rfl
@[simp] theorem enterFault_port (k : FaultCode) (c : Command) (s : State) : (enterFault k c s).port = s.port := rfl
@[simp] theorem enterFault_fault (k : FaultCode) (c : Command) (s : State) : (enterFault k c s).fault = true := rfl
@[simp] theorem enterFault_fcode (k : FaultCode) (c : Command) (s : State) : (enterFault k c s).fcode = faultNumber k := rfl
@[simp] theorem enterFault_fcmd (k : FaultCode) (c : Command) (s : State) : (enterFault k c s).fcmd = c.cw := rfl
@[simp] theorem enterFault_farg (k : FaultCode) (c : Command) (s : State) : (enterFault k c s).farg = c.arg := rfl
@[simp] theorem enterFault_r (k : FaultCode) (c : Command) (s : State) : (enterFault k c s).r = s.r := rfl
@[simp] theorem enterFault_v (k : FaultCode) (c : Command) (s : State) : (enterFault k c s).v = s.v := rfl
@[simp] theorem enterFault_ob (k : FaultCode) (c : Command) (s : State) : (enterFault k c s).ob = s.ob := rfl
@[simp] theorem enterFault_ib (k : FaultCode) (c : Command) (s : State) : (enterFault k c s).ib = s.ib := rfl
@[simp] theorem enterFault_rc (k : FaultCode) (c : Command) (s : State) : (enterFault k c s).rc = s.rc := rfl
@[simp] theorem enterFault_rcend (k : FaultCode) (c : Command) (s : State) : (enterFault k c s).rcend = s.rcend := rfl
@[simp] theorem enterFault_e0 (k : FaultCode) (c : Command) (s : State) : (enterFault k c s).e0 = s.e0 := rfl
@[simp] theorem enterFault_e1 (k : FaultCode) (c : Command) (s : State) : (enterFault k c s).e1 = s.e1 := rfl
@[simp] theorem enterFault_e2 (k : FaultCode) (c : Command) (s : State) : (enterFault k c s).e2 = s.e2 := rfl
@[simp] theorem enterFault_e3 (k : FaultCode) (c : Command) (s : State) : (enterFault k c s).e3 = s.e3 := rfl
@[simp] theorem enterFault_e4 (k : FaultCode) (c : Command) (s : State) : (enterFault k c s).e4 = s.e4 := rfl
@[simp] theorem enterFault_e5 (k : FaultCode) (c : Command) (s : State) : (enterFault k c s).e5 = s.e5 := rfl
@[simp] theorem enterFault_d0 (k : FaultCode) (c : Command) (s : State) : (enterFault k c s).d0 = s.d0 := rfl
@[simp] theorem enterFault_d1 (k : FaultCode) (c : Command) (s : State) : (enterFault k c s).d1 = s.d1 := rfl
@[simp] theorem enterFault_d3 (k : FaultCode) (c : Command) (s : State) : (enterFault k c s).d3 = s.d3 := rfl
@[simp] theorem enterFault_d4 (k : FaultCode) (c : Command) (s : State) : (enterFault k c s).d4 = s.d4 := rfl
@[simp] theorem enterFault_d5 (k : FaultCode) (c : Command) (s : State) : (enterFault k c s).d5 = s.d5 := rfl

/-! ### hardwareReset -/

@[simp] theorem hardwareReset_params (s : State) : (hardwareReset s).params = s.params := rfl
@[simp] theorem hardwareReset_port (s : State) : (hardwareReset s).port = s.port := rfl
@[simp] theorem hardwareReset_fault (s : State) : (hardwareReset s).fault = (State.resetWith s.params).fault := rfl
@[simp] theorem hardwareReset_fcode (s : State) : (hardwareReset s).fcode = (State.resetWith s.params).fcode := rfl
@[simp] theorem hardwareReset_fcmd (s : State) : (hardwareReset s).fcmd = (State.resetWith s.params).fcmd := rfl
@[simp] theorem hardwareReset_farg (s : State) : (hardwareReset s).farg = (State.resetWith s.params).farg := rfl
@[simp] theorem hardwareReset_r (s : State) : (hardwareReset s).r = (State.resetWith s.params).r := rfl
@[simp] theorem hardwareReset_v (s : State) : (hardwareReset s).v = (State.resetWith s.params).v := rfl
@[simp] theorem hardwareReset_ob (s : State) : (hardwareReset s).ob = (State.resetWith s.params).ob := rfl
@[simp] theorem hardwareReset_ib (s : State) : (hardwareReset s).ib = (State.resetWith s.params).ib := rfl
@[simp] theorem hardwareReset_rc (s : State) : (hardwareReset s).rc = (State.resetWith s.params).rc := rfl
@[simp] theorem hardwareReset_rcend (s : State) : (hardwareReset s).rcend = (State.resetWith s.params).rcend := rfl
@[simp] theorem hardwareReset_e0 (s : State) : (hardwareReset s).e0 = (State.resetWith s.params).e0 := rfl
@[simp] theorem hardwareReset_e1 (s : State) : (hardwareReset s).e1 = (State.resetWith s.params).e1 := rfl
@[simp] theorem hardwareReset_e2 (s : State) : (hardwareReset s).e2 = (State.resetWith s.params).e2 := rfl
@[simp] theorem hardwareReset_e3 (s : State) : (hardwareReset s).e3 = (State.resetWith s.params).e3 := rfl
@[simp] theorem hardwareReset_e4 (s : State) : (hardwareReset s).e4 = (State.resetWith s.params).e4 := rfl
@[simp] theorem hardwareReset_e5 (s : State) : (hardwareReset s).e5 = (State.resetWith s.params).e5 := rfl
@[simp] theorem hardwareReset_d0 (s : State) : (hardwareReset s).d0 = (State.resetWith s.params).d0 := rfl
@[simp] theorem hardwareReset_d1 (s : State) : (hardwareReset s).d1 = (State.resetWith s.params).d1 := rfl
@[simp] theorem hardwareReset_d3 (s : State) : (hardwareReset s).d3 = (State.resetWith s.params).d3 := rfl
@[simp] theorem hardwareReset_d4 (s : State) : (hardwareReset s).d4 = (State.resetWith s.params).d4 := rfl
@[simp] theorem hardwareReset_d5 (s : State) : (hardwareReset s).d5 = (State.resetWith s.params).d5 := rfl

/-! ### The decoder initialisers and the engine's clear -/

@[simp] theorem engineClear_st (e : HybridEnc) : (engineClear e).st = e.st := rfl
@[simp] theorem engineClear_fin (e : HybridEnc) : (engineClear e).fin = e.fin := rfl
@[simp] theorem engineClear_wid (e : HybridEnc) : (engineClear e).wid = e.wid := rfl
@[simp] theorem engineClear_rv (e : HybridEnc) : (engineClear e).rv = 0 := rfl
@[simp] theorem engineClear_rn (e : HybridEnc) : (engineClear e).rn = 0 := rfl
@[simp] theorem engineClear_oct (e : HybridEnc) : (engineClear e).oct = [] := rfl
@[simp] theorem engineClear_pr (e : HybridEnc) : (engineClear e).pr = [] := rfl
@[simp] theorem engineClear_noct (e : HybridEnc) : (engineClear e).noct = 0 := rfl

end Sys2Proof.Machine
end

