-- ==== Sys2Proof/Laws/Ops.lean ====
section
/-! SUPPORT. One lemma for each shared operation that says once everything it can do: the prelude of a command, an
append, a take, the bodies of the write and read primitives. -/

namespace Sys2Proof.Machine

/-! ### Operations that may raise a fault, put one after the other -/

/-- A sequence of two operations ends well when both do. -/
theorem bind_eq_ok {α β : Type} {x : Except FaultCode α} {f : α → Except FaultCode β} {r : β} :
    (x >>= f) = .ok r ↔ ∃ a, x = .ok a ∧ f a = .ok r := by
  cases x with
  | error e => exact ⟨fun h => (by cases h), fun ⟨_, h, _⟩ => (by cases h)⟩
  | ok a => exact ⟨fun h => ⟨a, rfl, h⟩, fun ⟨_, h, h'⟩ => by cases h; exact h'⟩

/-- A sequence of two operations raises what the first raises, or what the second does after it. -/
theorem bind_eq_error {α β : Type} {x : Except FaultCode α} {f : α → Except FaultCode β} {e : FaultCode} :
    (x >>= f) = .error e ↔ x = .error e ∨ ∃ a, x = .ok a ∧ f a = .error e := by
  cases x with
  | error e' =>
    refine ⟨fun h => .inl (by injection h with h; rw [h]), ?_⟩
    rintro (h | ⟨a, h, _⟩)
    · injection h with h; rw [h]; rfl
    · cases h
  | ok a =>
    refine ⟨fun h => .inr ⟨a, rfl, h⟩, ?_⟩
    rintro (h | ⟨_, h, h'⟩)
    · cases h
    · cases h; exact h'

/-! ### The prelude of a command (rule R345) -/

/-- A block in the fault state refuses the command (rule R347). -/
theorem command_of_fault {i : Instr} {s : State} {body : Except FaultCode State} (h : s.fault = true) :
    command i s body = .next s := by simp [command, h]

/-- A running block ends a legal command as its body does (rules R345, R346). -/
theorem command_of_running {i : Instr} {s : State} {body : Except FaultCode State} (h : s.fault = false)
    (hwf : i.wf = true) :
    command i s body =
      match body with
      | .ok s' => .next s'
      | .error code => .next (enterFault code (encode i) s) := by
  unfold command
  rw [h, hwf]
  rfl

theorem command_ok {i : Instr} {s s' : State} {body : Except FaultCode State} (h : s.fault = false)
    (hwf : i.wf = true) (hb : body = .ok s') : command i s body = .next s' := by
  rw [command_of_running h hwf, hb]

theorem command_error {i : Instr} {s : State} {code : FaultCode} {body : Except FaultCode State}
    (h : s.fault = false) (hwf : i.wf = true) (hb : body = .error code) :
    command i s body = .next (enterFault code (encode i) s) := by
  rw [command_of_running h hwf, hb]

/-- Every command ends with a next state (rules R10, R400). -/
theorem command_total (i : Instr) (s : State) (body : Except FaultCode State) :
    ∃ t, command i s body = .next t := by
  unfold command
  split
  · exact ⟨_, rfl⟩
  · split
    · cases body <;> exact ⟨_, rfl⟩
    · exact ⟨_, rfl⟩

/-- The four ways a command can end: refused, completed, faulted in its body, illegal (rules R345 to R347). -/
theorem command_cases {i : Instr} {s t : State} {body : Except FaultCode State} (h : command i s body = .next t) :
    (s.fault = true ∧ t = s) ∨ (s.fault = false ∧ i.wf = true ∧ body = .ok t) ∨
      (s.fault = false ∧ i.wf = true ∧ ∃ code, body = .error code ∧ t = enterFault code (encode i) s) ∨
      (s.fault = false ∧ i.wf = false ∧ t = enterFault .illegalCommand (encode i) s) := by
  unfold command at h
  split at h
  · next hf => exact .inl ⟨hf, by injection h with h; exact h.symm⟩
  · next hf =>
    have hf' : s.fault = false := by simpa using hf
    split at h
    · next hwf =>
      cases body with
      | ok s' => injection h with h; exact .inr (.inl ⟨hf', hwf, by rw [h]⟩)
      | error code => injection h with h; exact .inr (.inr (.inl ⟨hf', hwf, code, rfl, h.symm⟩))
    · next hwf => injection h with h; exact .inr (.inr (.inr ⟨hf', by simpa using hwf, h.symm⟩))

/-- A property of the state before, of the state after a fault entry, and of the state a body answers, is one of the
state after the command: the shape of every frame. -/
theorem command_keeps {i : Instr} {s t : State} {body : Except FaultCode State} (P : State → Prop)
    (h : command i s body = .next t) (h0 : P s) (hf : ∀ code c, P (enterFault code c s))
    (hb : ∀ s', body = .ok s' → P s') : P t := by
  rcases command_cases h with ⟨_, rfl⟩ | ⟨_, _, hok⟩ | ⟨_, _, code, _, rfl⟩ | ⟨_, _, rfl⟩
  · exact h0
  · exact hb _ hok
  · exact hf _ _
  · exact hf _ _

/-! ### Appends and takes (rule R9) -/

theorem append_eq_ok {cap : Nat} {buf b x : Bytes} :
    append cap buf b = .ok x ↔ buf.length + b.length ≤ cap ∧ x = buf ++ b := by
  unfold append
  split
  · exact ⟨fun h => (by cases h), fun h => by omega⟩
  · exact ⟨fun h => by injection h with h; exact ⟨by omega, h.symm⟩, fun h => by rw [h.2]⟩

theorem append_eq_error {cap : Nat} {buf b : Bytes} {e : FaultCode} :
    append cap buf b = .error e ↔ cap < buf.length + b.length ∧ e = .capacity := by
  unfold append
  split
  · exact ⟨fun h => by injection h with h; exact ⟨by omega, h.symm⟩, fun h => by rw [h.2]⟩
  · exact ⟨fun h => (by cases h), fun h => by omega⟩

theorem take_eq_ok {m : Memory} {c : Cursor} {n : Nat} {x : Bytes × Cursor} :
    take m c n = .ok x ↔ c.pos.toNat + n ≤ c.lim.toNat ∧
      x = (m.readBytes c.pos.toNat n, { c with pos := BitVec.ofNat 32 (c.pos.toNat + n) }) := by
  unfold take
  split
  · exact ⟨fun h => (by cases h), fun h => by omega⟩
  · exact ⟨fun h => by injection h with h; exact ⟨by omega, h.symm⟩, fun h => by rw [h.2]⟩

theorem take_eq_error {m : Memory} {c : Cursor} {n : Nat} {e : FaultCode} :
    take m c n = .error e ↔ c.lim.toNat < c.pos.toNat + n ∧ e = .readPastEnd := by
  unfold take
  split
  · exact ⟨fun h => by injection h with h; exact ⟨by omega, h.symm⟩, fun h => by rw [h.2]⟩
  · exact ⟨fun h => (by cases h), fun h => by omega⟩

theorem takeByte_eq_ok {m : Memory} {c : Cursor} {x : Byte × Cursor} :
    takeByte m c = .ok x ↔ c.pos.toNat + 1 ≤ c.lim.toNat ∧
      x = (m.read c.pos.toNat, { c with pos := BitVec.ofNat 32 (c.pos.toNat + 1) }) := by
  unfold takeByte
  rw [bind_eq_ok]
  constructor
  · rintro ⟨a, ha, hx⟩
    obtain ⟨hle, rfl⟩ := take_eq_ok.1 ha
    injection hx with hx
    exact ⟨hle, hx.symm⟩
  · rintro ⟨hle, rfl⟩
    exact ⟨_, take_eq_ok.2 ⟨hle, rfl⟩, rfl⟩

theorem takeByte_eq_error {m : Memory} {c : Cursor} {e : FaultCode} :
    takeByte m c = .error e ↔ c.lim.toNat < c.pos.toNat + 1 ∧ e = .readPastEnd := by
  unfold takeByte
  rw [bind_eq_error, take_eq_error]
  constructor
  · rintro (h | ⟨a, _, h⟩)
    · exact h
    · cases h
  · exact .inl

/-- A cursor that moves stays inside its limit and keeps it. -/
theorem toNat_ofNat_of_le {a n : Nat} {l : Word} (h : a + n ≤ l.toNat) : (BitVec.ofNat 32 (a + n)).toNat = a + n := by
  have := l.isLt
  rw [BitVec.toNat_ofNat, Nat.mod_eq_of_lt (by omega)]

/-- Where a reading operation leaves the cursor: not before where it was, not past the limit, the limit kept. -/
abbrev Cursor.Moved (c c' : Cursor) : Prop :=
  c'.lim = c.lim ∧ c.pos.toNat ≤ c'.pos.toNat ∧ c'.pos.toNat ≤ c.lim.toNat

theorem take_moved {m : Memory} {c : Cursor} {n : Nat} {x : Bytes × Cursor} (h : take m c n = .ok x) :
    c.Moved x.2 ∧ x.1.length = n ∧ x.2.pos.toNat = c.pos.toNat + n := by
  obtain ⟨hle, rfl⟩ := take_eq_ok.1 h
  have := toNat_ofNat_of_le hle
  exact ⟨⟨rfl, by simp only [this]; omega, by simp only [this]; omega⟩, Memory.readBytes_length _ _ _, this⟩

theorem takeByte_moved {m : Memory} {c : Cursor} {x : Byte × Cursor} (h : takeByte m c = .ok x) :
    c.Moved x.2 ∧ x.2.pos.toNat = c.pos.toNat + 1 := by
  obtain ⟨hle, rfl⟩ := takeByte_eq_ok.1 h
  have := toNat_ofNat_of_le hle
  exact ⟨⟨rfl, by simp only [this]; omega, by simp only [this]; omega⟩, this⟩

theorem Cursor.Moved.trans {a b c : Cursor} (h : a.Moved b) (h' : b.Moved c) : a.Moved c :=
  ⟨h'.1.trans h.1, by omega, by have := h'.2.2; rw [h.1] at this; exact this⟩

/-! ### Varints (rule R19) -/

/-- One turn of the varint loop. -/
theorem readVarintLoop_succ {n left k res : Nat} {m : Memory} {c : Cursor} :
    readVarintLoop n m (left + 1) k res c = (do
      let x ← takeByte m c
      if left = 0 ∧ 128 ≤ x.1.toNat then .error .varintUnterminated
      else if left = 0 ∧ (x.1.toNat % 128) >>> (n - 7 * k) ≠ 0 then .error .varintExcess
      else if x.1.toNat < 128 then .ok (res ||| ((x.1.toNat % 128) <<< (7 * k)), x.2)
      else readVarintLoop n m left (k + 1) (res ||| ((x.1.toNat % 128) <<< (7 * k))) x.2) := rfl

theorem readVarintLoop_moved {n : Nat} {m : Memory} : ∀ {left k res : Nat} {c : Cursor} {x : Nat × Cursor},
    readVarintLoop n m left k res c = .ok x → c.pos.toNat ≤ c.lim.toNat → c.Moved x.2 ∧
      (0 < left → c.pos.toNat < x.2.pos.toNat)
  | 0, _, _, c, x, h, hc => by
    injection h with h
    subst h
    exact ⟨⟨rfl, Nat.le_refl _, hc⟩, fun h => absurd h (Nat.lt_irrefl 0)⟩
  | left + 1, k, res, c, x, h, _ => by
    rw [readVarintLoop_succ, bind_eq_ok] at h
    obtain ⟨y, hy, h⟩ := h
    obtain ⟨hm, hpos⟩ := takeByte_moved hy
    split at h
    · cases h
    · split at h
      · cases h
      · split at h
        · injection h with h
          subst h
          exact ⟨hm, fun _ => by simp only [hpos]; omega⟩
        · obtain ⟨hm', -⟩ := readVarintLoop_moved h (by have := hm.1; have := hm.2.2; simp_all)
          exact ⟨hm.trans hm', fun _ => by have := hm'.2.1; omega⟩

/-- A varint that is read moves the cursor forward, within its limit. -/
theorem readVarint_moved {n : Nat} {m : Memory} {c : Cursor} {x : BitVec n × Cursor} (hn : 0 < n)
    (h : readVarint n m c = .ok x) : c.Moved x.2 ∧ c.pos.toNat < x.2.pos.toNat := by
  unfold readVarint at h
  obtain ⟨y, hy, h⟩ := bind_eq_ok.1 h
  injection h with h
  subst h
  have hmax : 0 < maxVarintBytes n := by unfold maxVarintBytes; omega
  by_cases hc : c.pos.toNat ≤ c.lim.toNat
  · exact ⟨(readVarintLoop_moved hy hc).1, (readVarintLoop_moved hy hc).2 hmax⟩
  · obtain ⟨l, hl⟩ : ∃ l, maxVarintBytes n = l + 1 := ⟨maxVarintBytes n - 1, by omega⟩
    rw [hl, readVarintLoop_succ, bind_eq_ok] at hy
    obtain ⟨z, hz, -⟩ := hy
    have := (takeByte_eq_ok.1 hz).1
    omega

/-- The only faults of a varint read. -/
theorem readVarintLoop_faults {n : Nat} {m : Memory} : ∀ {left k res : Nat} {c : Cursor} {e : FaultCode},
    readVarintLoop n m left k res c = .error e → e = .readPastEnd ∨ e = .varintUnterminated ∨ e = .varintExcess
  | 0, _, _, _, _, h => by cases h
  | left + 1, k, res, c, e, h => by
    rw [readVarintLoop_succ, bind_eq_error] at h
    rcases h with h | ⟨y, -, h⟩
    · exact .inl (takeByte_eq_error.1 h).2
    · split at h
      · injection h with h; exact .inr (.inl h.symm)
      · split at h
        · injection h with h; exact .inr (.inr h.symm)
        · split at h
          · cases h
          · exact readVarintLoop_faults h

theorem readVarint_faults {n : Nat} {m : Memory} {c : Cursor} {e : FaultCode} (h : readVarint n m c = .error e) :
    e = .readPastEnd ∨ e = .varintUnterminated ∨ e = .varintExcess := by
  unfold readVarint at h
  rcases bind_eq_error.1 h with h | ⟨_, _, h⟩
  · exact readVarintLoop_faults h
  · cases h

/-! ### The bodies of the write and read primitives (rules R160, R180) -/

theorem appendOB_eq_ok {s t : State} {b : Bytes} :
    appendOB s b = .ok t ↔ s.ob.length + b.length ≤ s.params.obcap ∧ t = s.setOB (s.ob ++ b) := by
  unfold appendOB
  rw [bind_eq_ok]
  constructor
  · rintro ⟨x, hx, h⟩
    obtain ⟨hle, rfl⟩ := append_eq_ok.1 hx
    injection h with h
    exact ⟨hle, h.symm⟩
  · rintro ⟨hle, rfl⟩
    exact ⟨_, append_eq_ok.2 ⟨hle, rfl⟩, rfl⟩

theorem appendOB_eq_error {s : State} {b : Bytes} {e : FaultCode} :
    appendOB s b = .error e ↔ s.params.obcap < s.ob.length + b.length ∧ e = .capacity := by
  unfold appendOB
  rw [bind_eq_error, append_eq_error]
  constructor
  · rintro (h | ⟨_, _, h⟩)
    · exact h
    · cases h
  · exact .inl

theorem takeRC_eq_ok {s : State} {n : Nat} {x : Bytes × State} :
    takeRC s n = .ok x ↔ s.rc.pos.toNat + n ≤ s.rc.lim.toNat ∧
      x = (s.ib.readBytes s.rc.pos.toNat n, s.setRC { s.rc with pos := BitVec.ofNat 32 (s.rc.pos.toNat + n) }) := by
  unfold takeRC
  rw [bind_eq_ok]
  constructor
  · rintro ⟨y, hy, h⟩
    obtain ⟨hle, rfl⟩ := take_eq_ok.1 hy
    injection h with h
    exact ⟨hle, h.symm⟩
  · rintro ⟨hle, rfl⟩
    exact ⟨_, take_eq_ok.2 ⟨hle, rfl⟩, rfl⟩

theorem takeRC_eq_error {s : State} {n : Nat} {e : FaultCode} :
    takeRC s n = .error e ↔ s.rc.lim.toNat < s.rc.pos.toNat + n ∧ e = .readPastEnd := by
  unfold takeRC
  rw [bind_eq_error, take_eq_error]
  constructor
  · rintro (h | ⟨_, _, h⟩)
    · exact h
    · cases h
  · exact .inl

theorem readVarintRC_eq_ok {n : Nat} {s : State} {x : BitVec n × State} :
    readVarintRC n s = .ok x ↔ ∃ u c, readVarint n s.ib s.rc = .ok (u, c) ∧ x = (u, s.setRC c) := by
  unfold readVarintRC
  rw [bind_eq_ok]
  constructor
  · rintro ⟨y, hy, h⟩
    injection h with h
    exact ⟨y.1, y.2, hy, h.symm⟩
  · rintro ⟨u, c, h, rfl⟩
    exact ⟨_, h, rfl⟩

theorem readVarintRC_eq_error {n : Nat} {s : State} {e : FaultCode} :
    readVarintRC n s = .error e ↔ readVarint n s.ib s.rc = .error e := by
  unfold readVarintRC
  rw [bind_eq_error]
  constructor
  · rintro (h | ⟨_, _, h⟩)
    · exact h
    · cases h
  · exact .inl

end Sys2Proof.Machine
end

