-- ==== Sys2Proof/Laws/Delta.lean ====
section
/-! SUPPORT. What each operation of the delta encoder and of the delta decoder can answer, said once. -/

namespace Sys2Proof.Machine

/-! ### The encoder -/

theorem flushAll_eq_ok {w cap : Nat} {e e' : DeltaEnc w} :
    flushAll cap e = .ok e' ↔
      (e.vb = [] ∧ e' = e) ∨
      (e.vb ≠ [] ∧ e.st.length + (bestBlock w (bufferedVals e.vb)).length ≤ cap ∧
        e' = { e with st := e.st ++ bestBlock w (bufferedVals e.vb), vb := [] }) := by
  unfold flushAll
  split
  · next h =>
    rw [bind_eq_ok]
    constructor
    · rintro ⟨st, hst, hx⟩
      obtain ⟨hle, rfl⟩ := append_eq_ok.1 hst
      injection hx with hx
      exact .inr ⟨List.ne_nil_of_length_pos h, hle, hx.symm⟩
    · rintro (⟨h', _⟩ | ⟨_, hle, rfl⟩)
      · simp [h'] at h
      · exact ⟨_, append_eq_ok.2 ⟨hle, rfl⟩, rfl⟩
  · next h =>
    have hnil : e.vb = [] := List.eq_nil_of_length_eq_zero (by omega)
    constructor
    · intro hx
      injection hx with hx
      exact .inl ⟨hnil, hx.symm⟩
    · rintro (⟨_, rfl⟩ | ⟨h', _⟩)
      · rfl
      · exact absurd hnil h'

theorem flushAll_eq_error {w cap : Nat} {e : DeltaEnc w} {c : FaultCode} :
    flushAll cap e = .error c ↔
      e.vb ≠ [] ∧ cap < e.st.length + (bestBlock w (bufferedVals e.vb)).length ∧ c = .capacity := by
  unfold flushAll
  split
  · next h =>
    rw [bind_eq_error, append_eq_error]
    constructor
    · rintro (⟨h', hc⟩ | ⟨_, _, hx⟩)
      · exact ⟨List.ne_nil_of_length_pos h, h', hc⟩
      · cases hx
    · rintro ⟨_, h', hc⟩
      exact .inl ⟨h', hc⟩
  · next h =>
    have hnil : e.vb = [] := List.eq_nil_of_length_eq_zero (by omega)
    exact ⟨fun h => (by cases h), fun h' => absurd hnil h'.1⟩

theorem flushFull_eq_ok {w cap : Nat} {e e' : DeltaEnc w} :
    flushFull cap e = .ok e' ↔
      (e.vb.length ≠ 129 ∧ e' = e) ∨
      (e.vb.length = 129 ∧ e.st.length + (bestBlock w (bufferedVals e.vb)).length ≤ cap ∧
        e' = { e with st := e.st ++ bestBlock w (bufferedVals e.vb), vb := [] }) := by
  unfold flushFull
  split
  · next h =>
    rw [flushAll_eq_ok]
    have hlen : e.vb.length = 129 := h
    have hne : e.vb ≠ [] := fun h' => by simp [h'] at hlen
    constructor
    · rintro (⟨h', _⟩ | ⟨_, hle, hx⟩)
      · exact absurd h' hne
      · exact .inr ⟨hlen, hle, hx⟩
    · rintro (⟨h', _⟩ | ⟨_, hle, hx⟩)
      · exact absurd hlen h'
      · exact .inr ⟨hne, hle, hx⟩
  · next h =>
    have hlen : e.vb.length ≠ 129 := h
    constructor
    · intro hx
      injection hx with hx
      exact .inl ⟨hlen, hx.symm⟩
    · rintro (⟨_, rfl⟩ | ⟨h', _⟩)
      · rfl
      · exact absurd h' hlen

theorem deltaBuffer_eq_ok {w cap : Nat} {e e' : DeltaEnc w} {v : BitVec w} :
    deltaBuffer cap e v = .ok e' ↔ ∃ e₁, flushFull cap e = .ok e₁ ∧ e' = { e₁ with vb := e₁.vb ++ [v] } := by
  unfold deltaBuffer
  rw [bind_eq_ok]
  constructor
  · rintro ⟨e₁, h, hx⟩
    injection hx with hx
    exact ⟨e₁, h, hx.symm⟩
  · rintro ⟨e₁, h, rfl⟩
    exact ⟨e₁, h, rfl⟩

/-- The lookahead keeps the buffer, or moves its first part to the staging buffer on a strict gain (rule R289). -/
theorem lookahead_eq_ok {w cap : Nat} {e e' : DeltaEnc w} (h : lookahead cap e = .ok e') :
    e' = e ∨ (8 < e.vb.length - 1 ∧ ∃ k, k = splitPoint (e.vb.length - 1) ∧
      e.st.length + (bestBlock w ((bufferedVals e.vb).take k)).length ≤ cap ∧
      e' = { e with st := e.st ++ bestBlock w ((bufferedVals e.vb).take k), vb := e.vb.drop k }) := by
  unfold lookahead at h
  simp only at h
  split at h
  · next hn =>
    split at h
    · obtain ⟨st, hst, hx⟩ := bind_eq_ok.1 h
      obtain ⟨hle, rfl⟩ := append_eq_ok.1 hst
      injection hx with hx
      exact .inr ⟨hn, _, rfl, hle, hx.symm⟩
    · injection h with h; exact .inl h.symm
  · injection h with h; exact .inl h.symm

/-- No operation of the encoder but the finish touches `FIN`. -/
theorem deltaBuffer_fin {w cap : Nat} {e e' : DeltaEnc w} {v : BitVec w} (h : deltaBuffer cap e v = .ok e') :
    e'.fin = e.fin := by
  obtain ⟨e₁, h₁, rfl⟩ := deltaBuffer_eq_ok.1 h
  rcases flushFull_eq_ok.1 h₁ with ⟨_, rfl⟩ | ⟨_, _, rfl⟩ <;> rfl

theorem lookahead_fin {w cap : Nat} {e e' : DeltaEnc w} (h : lookahead cap e = .ok e') : e'.fin = e.fin := by
  rcases lookahead_eq_ok h with rfl | ⟨_, _, _, _, rfl⟩ <;> rfl

theorem deltaFinish_fin {w cap : Nat} {e e' : DeltaEnc w} (h : deltaFinish cap e = .ok e') : e'.fin = true := by
  unfold deltaFinish at h
  split at h
  · next hf => injection h with h; subst h; exact hf
  · obtain ⟨_, _, h⟩ := bind_eq_ok.1 h
    injection h with h; subst h; rfl

theorem flushAll_faults {w cap : Nat} {e : DeltaEnc w} {c : FaultCode} (h : flushAll cap e = .error c) :
    c = .capacity := (flushAll_eq_error.1 h).2.2

theorem deltaBuffer_faults {w cap : Nat} {e : DeltaEnc w} {v : BitVec w} {c : FaultCode}
    (h : deltaBuffer cap e v = .error c) : c = .capacity := by
  unfold deltaBuffer at h
  rcases bind_eq_error.1 h with h | ⟨_, _, h⟩
  · unfold flushFull at h
    split at h
    · exact flushAll_faults h
    · cases h
  · cases h

theorem lookahead_faults {w cap : Nat} {e : DeltaEnc w} {c : FaultCode} (h : lookahead cap e = .error c) :
    c = .capacity := by
  unfold lookahead at h
  simp only at h
  split at h
  · split at h
    · rcases bind_eq_error.1 h with h | ⟨_, _, h⟩
      · exact (append_eq_error.1 h).2
      · cases h
    · cases h
  · cases h

theorem deltaFinish_faults {w cap : Nat} {e : DeltaEnc w} {c : FaultCode} (h : deltaFinish cap e = .error c) :
    c = .capacity := by
  unfold deltaFinish at h
  split at h
  · cases h
  · rcases bind_eq_error.1 h with h | ⟨_, _, h⟩
    · exact flushAll_faults h
    · cases h

/-! ### The decoder -/

/-- What reading from the stream leaves alone. -/
abbrev DeltaDec.Same {w : Nat} (d d' : DeltaDec w) : Prop := d'.act = d.act

/-- The two blocks a header can announce (rule R321). -/
theorem readBlockHeader_eq_ok {w : Nat} {m : Memory} {d d' : DeltaDec w} (h : readBlockHeader m d = .ok d') :
    ∃ bs c₁ mc c₂ vc c₃ u c₄, readVarint 32 m d.csr = .ok (bs, c₁) ∧ readVarint 32 m c₁ = .ok (mc, c₂) ∧
      readVarint 32 m c₂ = .ok (vc, c₃) ∧ readVarint w m c₃ = .ok (u, c₄) ∧
      headerBad bs.toNat mc.toNat vc.toNat = false ∧
      ((mc.toNat = 0 ∧ d' = startBlock d c₄ vc.toNat 0 (unzigzag u) 0) ∨
        (mc.toNat ≠ 0 ∧ ∃ md c₅ ws c₆, readVarint 64 m c₄ = .ok (md, c₅) ∧ take m c₅ mc.toNat = .ok (ws, c₆) ∧
          (∀ y ∈ ws, y.toNat ≤ maxMiniWidth w) ∧
          d' = { startBlock d c₆ vc.toNat (bs.toNat / mc.toNat) (unzigzag u) (unzigzag md) with widths := ws })) := by
  unfold readBlockHeader at h
  obtain ⟨⟨bs, c₁⟩, h₁, h⟩ := bind_eq_ok.1 h
  obtain ⟨⟨mc, c₂⟩, h₂, h⟩ := bind_eq_ok.1 h
  obtain ⟨⟨vc, c₃⟩, h₃, h⟩ := bind_eq_ok.1 h
  obtain ⟨⟨u, c₄⟩, h₄, h⟩ := bind_eq_ok.1 h
  refine ⟨bs, c₁, mc, c₂, vc, c₃, u, c₄, h₁, h₂, h₃, h₄, ?_⟩
  simp only at h
  split at h
  · cases h
  · next hb =>
    refine ⟨by simpa using hb, ?_⟩
    split at h
    · next hm => injection h with h; exact .inl ⟨hm, h.symm⟩
    · next hm =>
      obtain ⟨⟨md, c₅⟩, h₅, h⟩ := bind_eq_ok.1 h
      obtain ⟨⟨ws, c₆⟩, h₆, h⟩ := bind_eq_ok.1 h
      simp only at h
      split at h
      · cases h
      · next hw =>
        injection h with h
        refine .inr ⟨hm, md, c₅, ws, c₆, h₅, h₆, ?_, h.symm⟩
        intro y hy
        by_contra hlt
        exact hw (List.any_eq_true.2 ⟨y, hy, by simpa using hlt⟩)

theorem loadMini_eq_ok {w : Nat} {m : Memory} {d d' : DeltaDec w} (h : loadMini m d = .ok d') :
    ∃ b c, take m d.csr (bytesFor (min d.msz d.remv * (d.widths.getD d.mbidx 0).toNat)) = .ok (b, c) ∧
      d' = { d with
        csr := c, mbpos := 0, mbidx := d.mbidx + 1,
        mb := (unpack b (d.widths.getD d.mbidx 0).toNat (min d.msz d.remv)).map (BitVec.ofNat 64) } := by
  unfold loadMini at h
  obtain ⟨⟨b, c⟩, hb, h⟩ := bind_eq_ok.1 h
  injection h with h
  exact ⟨b, c, hb, h.symm⟩

theorem readBlockHeader_same {w : Nat} {m : Memory} {d d' : DeltaDec w} (h : readBlockHeader m d = .ok d') :
    d.Same d' := by
  obtain ⟨_, _, _, _, _, _, _, _, _, _, _, _, _, ⟨_, rfl⟩ | ⟨_, _, _, _, _, _, _, _, rfl⟩⟩ :=
    readBlockHeader_eq_ok h <;> rfl

theorem loadMini_same {w : Nat} {m : Memory} {d d' : DeltaDec w} (h : loadMini m d = .ok d') : d.Same d' := by
  obtain ⟨_, _, _, rfl⟩ := loadMini_eq_ok h
  rfl

/-- `deltaNext`: a new block if the one before is used up, then its first value, or the next delta of a loaded
mini-block (rule R323). -/
theorem deltaNext_eq_ok {w : Nat} {m : Memory} {d : DeltaDec w} {r : BitVec w × DeltaDec w} :
    deltaNext m d = .ok r ↔ ∃ d₁, nextBlock m d = .ok d₁ ∧
      ((d₁.first = true ∧ r = (d₁.cur, { d₁ with first := false, remv := d₁.remv - 1 })) ∨
        (d₁.first = false ∧ ∃ d₂, nextMini m d₁ = .ok d₂ ∧ r = deltaAdvance d₂)) := by
  unfold deltaNext
  rw [bind_eq_ok]
  constructor
  · rintro ⟨d₁, h₁, h⟩
    refine ⟨d₁, h₁, ?_⟩
    split at h
    · next hf => injection h with h; exact .inl ⟨hf, h.symm⟩
    · next hf =>
      obtain ⟨d₂, h₂, h⟩ := bind_eq_ok.1 h
      injection h with h
      exact .inr ⟨by simpa using hf, d₂, h₂, h.symm⟩
  · rintro ⟨d₁, h₁, (⟨hf, rfl⟩ | ⟨hf, d₂, h₂, rfl⟩)⟩
    · exact ⟨d₁, h₁, by simp [hf]⟩
    · refine ⟨d₁, h₁, ?_⟩
      simp only [hf]
      exact bind_eq_ok.2 ⟨d₂, h₂, rfl⟩

theorem nextBlock_same {w : Nat} {m : Memory} {d d' : DeltaDec w} (h : nextBlock m d = .ok d') : d.Same d' := by
  unfold nextBlock at h
  split at h
  · exact readBlockHeader_same h
  · injection h with h; rw [h]

theorem nextMini_same {w : Nat} {m : Memory} {d d' : DeltaDec w} (h : nextMini m d = .ok d') : d.Same d' := by
  unfold nextMini at h
  split at h
  · exact loadMini_same h
  · injection h with h; rw [h]

theorem deltaNext_same {w : Nat} {m : Memory} {d : DeltaDec w} {r : BitVec w × DeltaDec w}
    (h : deltaNext m d = .ok r) : d.Same r.2 := by
  obtain ⟨d₁, h₁, (⟨_, rfl⟩ | ⟨_, d₂, h₂, rfl⟩)⟩ := deltaNext_eq_ok.1 h
  · have h₃ : d₁.act = d.act := nextBlock_same h₁
    exact h₃
  · have h₃ : d₂.act = d₁.act := nextMini_same h₂
    exact h₃.trans (nextBlock_same h₁)

/-- The faults of a block header (rule R342). -/
theorem readBlockHeader_faults {w : Nat} {m : Memory} {d : DeltaDec w} {e : FaultCode}
    (h : readBlockHeader m d = .error e) :
    e = .readPastEnd ∨ e = .varintUnterminated ∨ e = .varintExcess ∨ e = .badBlockHeader ∨ e = .badWidth := by
  have var : ∀ {n : Nat} {c : Cursor}, readVarint n m c = .error e →
      e = .readPastEnd ∨ e = .varintUnterminated ∨ e = .varintExcess ∨ e = .badBlockHeader ∨ e = .badWidth := by
    intro n c h
    rcases readVarint_faults h with h | h | h
    · exact .inl h
    · exact .inr (.inl h)
    · exact .inr (.inr (.inl h))
  unfold readBlockHeader at h
  rcases bind_eq_error.1 h with h | ⟨_, _, h⟩
  · exact var h
  rcases bind_eq_error.1 h with h | ⟨_, _, h⟩
  · exact var h
  rcases bind_eq_error.1 h with h | ⟨_, _, h⟩
  · exact var h
  rcases bind_eq_error.1 h with h | ⟨_, _, h⟩
  · exact var h
  simp only at h
  split at h
  · injection h with h; exact .inr (.inr (.inr (.inl h.symm)))
  split at h
  · cases h
  rcases bind_eq_error.1 h with h | ⟨_, _, h⟩
  · exact var h
  rcases bind_eq_error.1 h with h | ⟨_, _, h⟩
  · exact .inl (take_eq_error.1 h).2
  split at h
  · injection h with h; exact .inr (.inr (.inr (.inr h.symm)))
  · cases h

theorem deltaNext_faults {w : Nat} {m : Memory} {d : DeltaDec w} {e : FaultCode} (h : deltaNext m d = .error e) :
    e = .readPastEnd ∨ e = .varintUnterminated ∨ e = .varintExcess ∨ e = .badBlockHeader ∨ e = .badWidth := by
  unfold deltaNext at h
  rcases bind_eq_error.1 h with h | ⟨_, _, h⟩
  · unfold nextBlock at h
    split at h
    · exact readBlockHeader_faults h
    · cases h
  · split at h
    · cases h
    · rcases bind_eq_error.1 h with h | ⟨_, _, h⟩
      · unfold nextMini at h
        split at h
        · unfold loadMini at h
          rcases bind_eq_error.1 h with h | ⟨_, _, h⟩
          · exact .inl (take_eq_error.1 h).2
          · cases h
        · cases h
      · cases h

end Sys2Proof.Machine
end

