-- ==== Sys2Proof/Laws/Hybrid.lean ====
section
/-! SUPPORT. What each operation of the hybrid engine and of the hybrid decoder can answer, said once. -/

namespace Sys2Proof.Machine

/-! ### The engine -/

/-- `buffer(E, v)`: the octuplet grows, or its eighth value packs it into the pending run (rule R222). -/
theorem bufferValue_eq_ok {p : Config.Params} {e e' : HybridEnc} {v : Word} :
    bufferValue p e v = .ok e' ↔
      (e.oct.length ≠ 7 ∧ e' = { e with oct := e.oct ++ [v] }) ∨
      (e.oct.length = 7 ∧ e.pr.length + (pack ((e.oct ++ [v]).map BitVec.toNat) e.wid).length ≤ p.prcap ∧
        e' = { e with pr := e.pr ++ pack ((e.oct ++ [v]).map BitVec.toNat) e.wid, noct := e.noct + 1, oct := [] }) := by
  unfold bufferValue
  simp only [List.length_append, List.length_cons, List.length_nil]
  split
  · next h =>
    rw [bind_eq_ok]
    constructor
    · rintro ⟨pr, hpr, hx⟩
      obtain ⟨hle, rfl⟩ := append_eq_ok.1 hpr
      injection hx with hx
      exact .inr ⟨by omega, hle, hx.symm⟩
    · rintro (⟨h', _⟩ | ⟨_, hle, rfl⟩)
      · omega
      · exact ⟨_, append_eq_ok.2 ⟨hle, rfl⟩, rfl⟩
  · next h =>
    constructor
    · intro hx
      injection hx with hx
      exact .inl ⟨by omega, hx.symm⟩
    · rintro (⟨_, rfl⟩ | ⟨h', _⟩)
      · rfl
      · omega

theorem bufferValue_eq_error {p : Config.Params} {e : HybridEnc} {v : Word} {c : FaultCode} :
    bufferValue p e v = .error c ↔
      e.oct.length = 7 ∧ p.prcap < e.pr.length + (pack ((e.oct ++ [v]).map BitVec.toNat) e.wid).length ∧
        c = .capacity := by
  unfold bufferValue
  simp only [List.length_append, List.length_cons, List.length_nil]
  split
  · next h =>
    rw [bind_eq_error, append_eq_error]
    constructor
    · rintro (⟨h', hc⟩ | ⟨_, _, hx⟩)
      · exact ⟨by omega, h', hc⟩
      · cases hx
    · rintro ⟨_, h', hc⟩
      exact .inl ⟨h', hc⟩
  · next h => exact ⟨fun h => (by cases h), fun h' => by omega⟩

/-- `flushPacked(E)`: the pending bit-packed run goes out behind its header (rule R223). -/
theorem flushPacked_eq_ok {p : Config.Params} {e e' : HybridEnc} :
    flushPacked p e = .ok e' ↔
      (e.noct = 0 ∧ e' = e) ∨
      (0 < e.noct ∧ e.st.length + (varint ((e.noct <<< 1) ||| 1)).length + e.pr.length ≤ p.stcap ∧
        e' = { e with st := e.st ++ varint ((e.noct <<< 1) ||| 1) ++ e.pr, noct := 0, pr := [] }) := by
  unfold flushPacked
  split
  · next h =>
    rw [bind_eq_ok]
    constructor
    · rintro ⟨st, hst, hx⟩
      obtain ⟨hle, rfl⟩ := append_eq_ok.1 hst
      obtain ⟨st', hst', hx⟩ := bind_eq_ok.1 hx
      obtain ⟨hle', rfl⟩ := append_eq_ok.1 hst'
      injection hx with hx
      refine .inr ⟨h, ?_, hx.symm⟩
      rw [List.length_append] at hle'
      exact hle'
    · rintro (⟨h', _⟩ | ⟨_, hle, rfl⟩)
      · omega
      · refine ⟨_, append_eq_ok.2 ⟨by omega, rfl⟩, ?_⟩
        exact bind_eq_ok.2 ⟨_, append_eq_ok.2 ⟨by rw [List.length_append]; exact hle, rfl⟩, rfl⟩
  · next h =>
    constructor
    · intro hx
      injection hx with hx
      exact .inl ⟨by omega, hx.symm⟩
    · rintro (⟨_, rfl⟩ | ⟨h', _⟩)
      · rfl
      · omega

theorem flushPacked_eq_error {p : Config.Params} {e : HybridEnc} {c : FaultCode} :
    flushPacked p e = .error c ↔
      0 < e.noct ∧ p.stcap < e.st.length + (varint ((e.noct <<< 1) ||| 1)).length + e.pr.length ∧ c = .capacity := by
  unfold flushPacked
  split
  · next h =>
    rw [bind_eq_error, append_eq_error]
    constructor
    · rintro (⟨h', hc⟩ | ⟨st, hst, hx⟩)
      · exact ⟨h, by omega, hc⟩
      · obtain ⟨hle, rfl⟩ := append_eq_ok.1 hst
        rcases bind_eq_error.1 hx with hx | ⟨_, _, hx⟩
        · obtain ⟨h', hc⟩ := append_eq_error.1 hx
          rw [List.length_append] at h'
          exact ⟨h, h', hc⟩
        · cases hx
    · rintro ⟨_, h', hc⟩
      by_cases hle : e.st.length + (varint ((e.noct <<< 1) ||| 1)).length ≤ p.stcap
      · refine .inr ⟨_, append_eq_ok.2 ⟨hle, rfl⟩, bind_eq_error.2 (.inl ?_)⟩
        exact append_eq_error.2 ⟨by rw [List.length_append]; exact h', hc⟩
      · exact .inl ⟨by omega, hc⟩
  · next h => exact ⟨fun h => (by cases h), fun h' => by omega⟩

/-- The bytes `flushPacked` stages: nothing, or the header of the pending bit-packed run and its octuplets. -/
def packedRunBytes (e : HybridEnc) : Bytes := if e.noct = 0 then [] else varint ((e.noct <<< 1) ||| 1) ++ e.pr

/-- The bytes of the RLE candidate as a run (rule R223). -/
def rleRunBytes (e : HybridEnc) : Bytes := varint (e.rn <<< 1) ++ pack [e.rv.toNat] e.wid

/-- `flushRLE(E)`: the pending bit-packed run, then the RLE candidate; `hp` is rule R38 item 4 for an empty run. -/
theorem flushRLE_eq_ok {p : Config.Params} {e e' : HybridEnc} (hp : e.noct = 0 → e.pr = []) :
    flushRLE p e = .ok e' ↔
      e.st.length + (packedRunBytes e).length + (rleRunBytes e).length ≤ p.stcap ∧
        e' = { e with st := e.st ++ packedRunBytes e ++ rleRunBytes e, rn := 0, noct := 0, pr := [] } := by
  have key : ∀ (e₁ : HybridEnc) (r : HybridEnc),
      (append p.stcap e₁.st (varint (e₁.rn <<< 1)) >>= fun st =>
        append p.stcap st (pack [e₁.rv.toNat] e₁.wid) >>= fun st => Except.ok { e₁ with st := st, rn := 0 }) = .ok r ↔
        e₁.st.length + (rleRunBytes e₁).length ≤ p.stcap ∧ r = { e₁ with st := e₁.st ++ rleRunBytes e₁, rn := 0 } := by
    intro e₁ r
    rw [bind_eq_ok, rleRunBytes, List.length_append, ← List.append_assoc]
    constructor
    · rintro ⟨st, hst, hx⟩
      obtain ⟨_, rfl⟩ := append_eq_ok.1 hst
      obtain ⟨st', hst', hx⟩ := bind_eq_ok.1 hx
      obtain ⟨hle', rfl⟩ := append_eq_ok.1 hst'
      injection hx with hx
      rw [List.length_append] at hle'
      exact ⟨by omega, hx.symm⟩
    · rintro ⟨hle, rfl⟩
      refine ⟨_, append_eq_ok.2 ⟨by omega, rfl⟩, ?_⟩
      exact bind_eq_ok.2 ⟨_, append_eq_ok.2 ⟨by rw [List.length_append]; omega, rfl⟩, rfl⟩
  unfold flushRLE
  rw [bind_eq_ok]
  constructor
  · rintro ⟨e₁, he₁, hx⟩
    obtain ⟨hle, rfl⟩ := (key e₁ e').1 hx
    rcases flushPacked_eq_ok.1 he₁ with ⟨h0, rfl⟩ | ⟨h0, -, rfl⟩
    · refine ⟨by simp [packedRunBytes, h0]; exact hle, ?_⟩
      simp [packedRunBytes, h0, hp h0]
    · have hne : e.noct ≠ 0 := by omega
      refine ⟨?_, ?_⟩
      · simp only [packedRunBytes, hne, if_false, rleRunBytes, List.length_append] at hle ⊢
        omega
      · simp [packedRunBytes, hne, rleRunBytes]
  · rintro ⟨hle, rfl⟩
    by_cases h0 : e.noct = 0
    · refine ⟨e, flushPacked_eq_ok.2 (.inl ⟨h0, rfl⟩), (key _ _).2 ⟨?_, ?_⟩⟩
      · simpa [packedRunBytes, h0] using hle
      · simp [packedRunBytes, h0, hp h0]
    · refine ⟨_, flushPacked_eq_ok.2 (.inr ⟨by omega, ?_, rfl⟩), (key _ _).2 ⟨?_, ?_⟩⟩
      · simp only [packedRunBytes, h0, if_false, List.length_append] at hle
        omega
      · simp only [packedRunBytes, h0, if_false, rleRunBytes, List.length_append] at hle ⊢
        omega
      · simp [packedRunBytes, h0, rleRunBytes]

/-- What no engine operation touches: the finished flag and the width. -/
abbrev HybridEnc.Same (e e' : HybridEnc) : Prop := e'.fin = e.fin ∧ e'.wid = e.wid

theorem bufferValue_same {p : Config.Params} {e e' : HybridEnc} {v : Word} (h : bufferValue p e v = .ok e') :
    e.Same e' := by
  rcases bufferValue_eq_ok.1 h with ⟨_, rfl⟩ | ⟨_, _, rfl⟩ <;> exact ⟨rfl, rfl⟩

theorem bufferRepeat_same {p : Config.Params} {v : Word} : ∀ {n : Nat} {e e' : HybridEnc},
    bufferRepeat p v n e = .ok e' → e.Same e'
  | 0, e, e', h => by injection h with h; rw [h]; exact ⟨rfl, rfl⟩
  | n + 1, e, e', h => by
    obtain ⟨e₁, h₁, h⟩ := (bind_eq_ok (x := bufferValue p e v)).1 h
    exact ⟨(bufferRepeat_same h).1.trans (bufferValue_same h₁).1, (bufferRepeat_same h).2.trans (bufferValue_same h₁).2⟩

theorem flushPacked_same {p : Config.Params} {e e' : HybridEnc} (h : flushPacked p e = .ok e') : e.Same e' := by
  rcases flushPacked_eq_ok.1 h with ⟨_, rfl⟩ | ⟨_, _, rfl⟩ <;> exact ⟨rfl, rfl⟩

theorem flushRLE_same {p : Config.Params} {e e' : HybridEnc} (h : flushRLE p e = .ok e') : e.Same e' := by
  obtain ⟨e₁, h₁, h⟩ := (bind_eq_ok (x := flushPacked p e)).1 h
  obtain ⟨st, -, h⟩ := bind_eq_ok.1 h
  obtain ⟨st', -, h⟩ := bind_eq_ok.1 h
  injection h with h
  subst h
  have h₂ := flushPacked_same h₁
  exact ⟨h₂.1, h₂.2⟩

theorem encodeFresh_same {p : Config.Params} {e e' : HybridEnc} {v : Word} (h : encodeFresh p e v = .ok e') :
    e.Same e' := by
  unfold encodeFresh at h
  split at h
  · exact bufferValue_same h
  · injection h with h; subst h; exact ⟨rfl, rfl⟩

theorem encode1_same {p : Config.Params} {e e' : HybridEnc} {v : Word} (h : encode1 p e v = .ok e') : e.Same e' := by
  unfold encode1 at h
  split at h
  · exact encodeFresh_same h
  · split at h
    · split at h
      · cases h
      · injection h with h; subst h; exact ⟨rfl, rfl⟩
    · split at h
      · obtain ⟨e₁, h₁, h⟩ := bind_eq_ok.1 h
        injection h with h
        subst h
        have h₂ := flushRLE_same h₁
        exact ⟨h₂.1, h₂.2⟩
      · obtain ⟨e₁, h₁, h⟩ := bind_eq_ok.1 h
        have h₂ := encodeFresh_same h
        exact ⟨h₂.1.trans (bufferRepeat_same h₁).1, h₂.2.trans (bufferRepeat_same h₁).2⟩

theorem finish1_same {p : Config.Params} {e e' : HybridEnc} (h : finish1 p e = .ok e') : e.Same e' := by
  unfold finish1 at h
  split at h
  · obtain ⟨e₁, h₁, h⟩ := bind_eq_ok.1 h
    exact ⟨(flushPacked_same h).1.trans (bufferRepeat_same h₁).1, (flushPacked_same h).2.trans (bufferRepeat_same h₁).2⟩
  · split at h
    · exact flushRLE_same h
    · exact flushPacked_same h

theorem hybridFinish_fin {p : Config.Params} {e e' : HybridEnc} (h : hybridFinish p e = .ok e') : e'.fin = true := by
  unfold hybridFinish at h
  split at h
  · next hf => injection h with h; subst h; exact hf
  · obtain ⟨_, _, h⟩ := bind_eq_ok.1 h
    injection h with h; subst h; rfl

theorem selfUnitFinish_fin {p : Config.Params} {b : Bool} {u u' : SelfEnc} (h : selfUnitFinish p b u = .ok u') :
    u'.hyb.fin = true := by
  unfold selfUnitFinish at h
  split at h
  · next hf => injection h with h; subst h; exact hf
  · obtain ⟨_, _, h⟩ := bind_eq_ok.1 h
    injection h with h; subst h; rfl

theorem selfEncode_eq_ok {p : Config.Params} {u u' : SelfEnc} {v : Word} :
    selfEncode p u v = .ok u' ↔ u.raw.length < p.rawcap ∧
      u' = { u with raw := u.raw ++ [v], wmax := max u.wmax (bitWidth v.toNat) } := by
  unfold selfEncode
  split
  · exact ⟨fun h => (by cases h), fun h => by omega⟩
  · exact ⟨fun h => by injection h with h; exact ⟨by omega, h.symm⟩, fun h => by rw [h.2]⟩

/-! ### Every fault of the engine is `CAPACITY` (rule R342) -/

theorem bufferRepeat_faults {p : Config.Params} {v : Word} {c : FaultCode} : ∀ {n : Nat} {e : HybridEnc},
    bufferRepeat p v n e = .error c → c = .capacity
  | 0, _, h => by cases h
  | n + 1, e, h => by
    rcases (bind_eq_error (x := bufferValue p e v)).1 h with h | ⟨_, _, h⟩
    · exact (bufferValue_eq_error.1 h).2.2
    · exact bufferRepeat_faults h

theorem flushRLE_faults {p : Config.Params} {e : HybridEnc} {c : FaultCode} (h : flushRLE p e = .error c) :
    c = .capacity := by
  rcases (bind_eq_error (x := flushPacked p e)).1 h with h | ⟨_, _, h⟩
  · exact (flushPacked_eq_error.1 h).2.2
  · rcases bind_eq_error.1 h with h | ⟨_, _, h⟩
    · exact (append_eq_error.1 h).2
    · rcases bind_eq_error.1 h with h | ⟨_, _, h⟩
      · exact (append_eq_error.1 h).2
      · cases h

theorem encodeFresh_faults {p : Config.Params} {e : HybridEnc} {v : Word} {c : FaultCode}
    (h : encodeFresh p e v = .error c) : c = .capacity := by
  unfold encodeFresh at h
  split at h
  · exact (bufferValue_eq_error.1 h).2.2
  · cases h

theorem encode1_faults {p : Config.Params} {e : HybridEnc} {v : Word} {c : FaultCode}
    (h : encode1 p e v = .error c) : c = .capacity := by
  unfold encode1 at h
  split at h
  · exact encodeFresh_faults h
  · split at h
    · split at h
      · injection h with h; exact h.symm
      · cases h
    · split at h
      · rcases bind_eq_error.1 h with h | ⟨_, _, h⟩
        · exact flushRLE_faults h
        · cases h
      · rcases bind_eq_error.1 h with h | ⟨_, _, h⟩
        · exact bufferRepeat_faults h
        · exact encodeFresh_faults h

theorem encodeAll_faults {p : Config.Params} {c : FaultCode} : ∀ {vs : List Word} {e : HybridEnc},
    encodeAll p vs e = .error c → c = .capacity
  | [], _, h => by cases h
  | v :: vs, e, h => by
    rcases (bind_eq_error (x := encode1 p e v)).1 h with h | ⟨_, _, h⟩
    · exact encode1_faults h
    · exact encodeAll_faults h

theorem finish1_faults {p : Config.Params} {e : HybridEnc} {c : FaultCode} (h : finish1 p e = .error c) :
    c = .capacity := by
  unfold finish1 at h
  split at h
  · rcases bind_eq_error.1 h with h | ⟨_, _, h⟩
    · exact bufferRepeat_faults h
    · exact (flushPacked_eq_error.1 h).2.2
  · split at h
    · exact flushRLE_faults h
    · exact (flushPacked_eq_error.1 h).2.2

theorem hybridFinish_faults {p : Config.Params} {e : HybridEnc} {c : FaultCode}
    (h : hybridFinish p e = .error c) : c = .capacity := by
  unfold hybridFinish at h
  split at h
  · cases h
  · rcases bind_eq_error.1 h with h | ⟨_, _, h⟩
    · exact finish1_faults h
    · cases h

theorem selfEncode_faults {p : Config.Params} {u : SelfEnc} {v : Word} {c : FaultCode}
    (h : selfEncode p u v = .error c) : c = .capacity := by
  unfold selfEncode at h
  split at h
  · injection h with h; exact h.symm
  · cases h

theorem selfUnitFinish_faults {p : Config.Params} {b : Bool} {u : SelfEnc} {c : FaultCode}
    (h : selfUnitFinish p b u = .error c) : c = .capacity := by
  unfold selfUnitFinish at h
  split at h
  · cases h
  · rcases bind_eq_error.1 h with h | ⟨_, _, h⟩
    · unfold selfFinish at h
      rcases bind_eq_error.1 h with h | ⟨_, _, h⟩
      · unfold stageWidth at h
        split at h
        · exact (append_eq_error.1 h).2
        · cases h
      · rcases bind_eq_error.1 h with h | ⟨_, _, h⟩
        · exact encodeAll_faults h
        · rcases bind_eq_error.1 h with h | ⟨_, _, h⟩
          · exact finish1_faults h
          · cases h
    · cases h

/-! ### The decoder -/

/-- One pass of `rleNext`, branch by branch (rule R261). -/
theorem rlePass_eq_ok {m : Memory} {d d' : HybridDec} {x : Option Word} :
    rlePass m d = .ok (x, d') →
      (d.mode = .rle ∧ 0 < d.rem ∧ x = some d.val ∧ d' = { d with rem := d.rem - 1 }) ∨
      (d.mode = .packed ∧ d.opos < 8 ∧ x = some (d.oct.getD d.opos 0) ∧ d' = { d with opos := d.opos + 1 }) ∨
      (d.mode = .packed ∧ 8 ≤ d.opos ∧ 0 < d.rem ∧ x = none ∧ ∃ b c, take m d.csr d.wid = .ok (b, c) ∧
        d' = { d with csr := c, oct := (unpack b d.wid 8).map (BitVec.ofNat 32), opos := 0, rem := d.rem - 1 }) ∨
      ((d.mode = .rle → d.rem = 0) ∧ (d.mode = .packed → 8 ≤ d.opos ∧ d.rem = 0) ∧ x = none ∧
        ∃ h c, readVarint 32 m d.csr = .ok (h, c) ∧
          ((h.toNat % 2 = 1 ∧ d' = { d with csr := c, mode := .packed, rem := h.toNat / 2, opos := 8 }) ∨
            (h.toNat % 2 = 0 ∧ ∃ b c', take m c (bytesFor d.wid) = .ok (b, c') ∧
              d' = { d with csr := c', mode := .rle, rem := h.toNat / 2,
                            val := BitVec.ofNat 32 ((unpack b d.wid 1).headD 0) }))) := by
  intro h
  unfold rlePass at h
  split at h
  · next hc => injection h with h; injection h with h1 h2; exact .inl ⟨hc.1, hc.2, h1.symm, h2.symm⟩
  · next hr =>
    split at h
    · next hc => injection h with h; injection h with h1 h2; exact .inr (.inl ⟨hc.1, hc.2, h1.symm, h2.symm⟩)
    · next hp =>
      split at h
      · next hc =>
        obtain ⟨⟨b, c⟩, hb, h⟩ := bind_eq_ok.1 h
        injection h with h
        injection h with h1 h2
        exact .inr (.inr (.inl ⟨hc.1, by by_contra hh; exact hp ⟨hc.1, by omega⟩, hc.2, h1.symm, b, c, hb, h2.symm⟩))
      · next hl =>
        obtain ⟨⟨hd, c⟩, hhd, h⟩ := bind_eq_ok.1 h
        refine .inr (.inr (.inr ⟨?_, ?_, ?_⟩))
        · intro hm; by_contra hh; exact hr ⟨hm, by omega⟩
        · intro hm
          exact ⟨by by_contra hh; exact hp ⟨hm, by omega⟩, by by_contra hh; exact hl ⟨hm, by omega⟩⟩
        · simp only at h
          split at h
          · next ho =>
            injection h with h
            injection h with h1 h2
            exact ⟨h1.symm, hd, c, hhd, .inl ⟨ho, h2.symm⟩⟩
          · next ho =>
            obtain ⟨⟨b, c'⟩, hb, h⟩ := bind_eq_ok.1 h
            injection h with h
            injection h with h1 h2
            exact ⟨h1.symm, hd, c, hhd, .inr ⟨by omega, b, c', hb, h2.symm⟩⟩

/-- What no pass of `rleNext` touches. -/
abbrev HybridDec.Same (d d' : HybridDec) : Prop := d'.act = d.act ∧ d'.wid = d.wid

theorem rlePass_same {m : Memory} {d d' : HybridDec} {x : Option Word} (h : rlePass m d = .ok (x, d')) : d.Same d' := by
  rcases rlePass_eq_ok h with ⟨_, _, _, rfl⟩ | ⟨_, _, _, rfl⟩ | ⟨_, _, _, _, _, _, _, rfl⟩ |
    ⟨_, _, _, _, _, _, ⟨_, rfl⟩ | ⟨_, _, _, _, rfl⟩⟩ <;> exact ⟨rfl, rfl⟩

theorem rlePass_faults {m : Memory} {d : HybridDec} {e : FaultCode} (h : rlePass m d = .error e) :
    e = .readPastEnd ∨ e = .varintUnterminated ∨ e = .varintExcess := by
  unfold rlePass at h
  split at h
  · cases h
  · split at h
    · cases h
    · split at h
      · rcases bind_eq_error.1 h with h | ⟨_, _, h⟩
        · exact .inl (take_eq_error.1 h).2
        · cases h
      · rcases bind_eq_error.1 h with h | ⟨_, _, h⟩
        · exact readVarint_faults h
        · simp only at h
          split at h
          · cases h
          · rcases bind_eq_error.1 h with h | ⟨_, _, h⟩
            · exact .inl (take_eq_error.1 h).2
            · cases h

/-- One turn of the loop of `rleNext`. -/
theorem rleLoop_succ {m : Memory} {fuel : Nat} {d : HybridDec} {r : Word × HybridDec} :
    rleLoop m (fuel + 1) d = .ok r ↔
      ∃ x d', rlePass m d = .ok (x, d') ∧ ((∃ v, x = some v ∧ r = (v, d')) ∨ (x = none ∧ rleLoop m fuel d' = .ok r)) := by
  rw [rleLoop, bind_eq_ok]
  constructor
  · rintro ⟨⟨x, d'⟩, hp, h⟩
    refine ⟨x, d', hp, ?_⟩
    cases x with
    | some v => injection h with h; exact .inl ⟨v, rfl, h.symm⟩
    | none => exact .inr ⟨rfl, h⟩
  · rintro ⟨x, d', hp, (⟨v, rfl, rfl⟩ | ⟨rfl, h⟩)⟩
    · exact ⟨_, hp, rfl⟩
    · exact ⟨_, hp, h⟩

theorem rleLoop_same {m : Memory} : ∀ {fuel : Nat} {d : HybridDec} {r : Word × HybridDec},
    rleLoop m fuel d = .ok r → d.Same r.2
  | 0, _, _, h => by cases h
  | fuel + 1, d, r, h => by
    obtain ⟨x, d', hp, (⟨v, _, rfl⟩ | ⟨_, h⟩)⟩ := rleLoop_succ.1 h
    · exact rlePass_same hp
    · exact ⟨(rleLoop_same h).1.trans (rlePass_same hp).1, (rleLoop_same h).2.trans (rlePass_same hp).2⟩

theorem rleLoop_faults {m : Memory} {e : FaultCode} : ∀ {fuel : Nat} {d : HybridDec},
    rleLoop m fuel d = .error e → e = .readPastEnd ∨ e = .varintUnterminated ∨ e = .varintExcess
  | 0, _, h => by injection h with h; exact .inl h.symm
  | fuel + 1, d, h => by
    rw [rleLoop] at h
    rcases bind_eq_error.1 h with h | ⟨⟨x, d'⟩, _, h⟩
    · exact rlePass_faults h
    · cases x with
      | some v => cases h
      | none => exact rleLoop_faults h

end Sys2Proof.Machine
end

