-- ==== Sys2Proof/Laws/Exec.lean ====
section
/-! SUPPORT. What every command can do, said once: it is refused, or it enters a fault, or it has the effect listed
here, with the result of the shared operation it runs. Frames and invariants follow by cases on the command. -/

namespace Sys2Proof.Machine

@[simp] theorem unpack_length (b : Bytes) (w n : Nat) : (unpack b w n).length = n := by
  unfold unpack
  generalize leVal b = x
  induction n generalizing x with
  | zero => rfl
  | succ n ih => simp [unpackSum, ih]

/-- The effect of a command that completes from `s` in `t` (rules R131 to R327). -/
def Effect (i : Instr) (s t : State) : Prop :=
  match i with
  | .nop _ => t = s
  | .obclr _ => t = s.setOB []
  | .obpoke byte arg => (argWord arg).toNat < s.ob.length ∧ t = s.setOB (s.ob.set (argWord arg).toNat byte)
  | .rcatt arg => (argWord arg).toNat ≤ s.params.ibcap ∧
      t = ((s.setRCEnd (argWord arg)).setRC ⟨0, argWord arg⟩).detachDecoders
  | .rcslice arg => s.rc.pos.toNat + (argWord arg).toNat ≤ s.rc.lim.toNat ∧
      t = s.setRC ⟨s.rc.pos, BitVec.ofNat 32 (s.rc.pos.toNat + (argWord arg).toNat)⟩
  | .rcunsl _ => t = s.setRC ⟨s.rc.pos, s.rcend⟩
  | .vset lane arg => t = s.setV (s.v.setIfInBounds lane.toNat arg)
  | .bitw32 _ | .bitw64 _ | .zze32 _ | .zze64 _ | .zzd32 _ | .zzd64 _ => ∃ r, t = s.setR r
  | .wfix32 _ | .wfix64 _ | .wvar32 _ | .wvar64 _ | .wzz32 _ | .wzz64 _ | .wpack32 _ _ _
  | .wpack64 _ _ _ | .wpbool _ =>
      ∃ b, s.ob.length + b.length ≤ s.params.obcap ∧ t = s.setOB (s.ob ++ b)
  | .rfix32 _ | .rfix64 _ | .rvar32 _ | .rvar64 _ | .rzz32 _ | .rzz64 _ | .rpbool _ =>
      ∃ c r, s.rc.Moved c ∧ t = (s.setRC c).setR r
  | .rpack32 _ count _ | .rpack64 _ count _ =>
      ∃ c xs, s.rc.Moved c ∧ xs.length = count.toNat ∧ t = (s.setRC c).setV (setLanes s.v 0 xs)
  | .enc0 arg => ∃ e, s.e0.fin = false ∧ boolEncode s.params.stcap s.e0 (argBool arg) = .ok e ∧ t = s.setE0 e
  | .enc1 arg => ∃ e, s.e1.fin = false ∧ encode1 s.params s.e1 (argWord arg) = .ok e ∧ t = s.setE1 e
  | .enc2 arg => ∃ u, s.e2.hyb.fin = false ∧ selfEncode s.params s.e2 (argWord arg) = .ok u ∧ t = s.setE2 u
  | .enc3 arg => ∃ u, s.e3.hyb.fin = false ∧ selfEncode s.params s.e3 (argWord arg) = .ok u ∧ t = s.setE3 u
  | .enc4 arg => ∃ e, s.e4.fin = false ∧ deltaBuffer s.params.stcap s.e4 (argWord arg) = .ok e ∧ t = s.setE4 e
  | .enc5 arg => ∃ e₁ e, s.e5.fin = false ∧ deltaBuffer s.params.stcap s.e5 arg = .ok e₁ ∧
      lookahead s.params.stcap e₁ = .ok e ∧ t = s.setE5 e
  | .fin0 _ => ∃ e, boolFinish s.params.stcap s.e0 = .ok e ∧ t = s.setE0 e
  | .fin1 _ => ∃ e, hybridFinish s.params s.e1 = .ok e ∧ t = s.setE1 e
  | .fin2 _ => ∃ e, selfUnitFinish s.params false s.e2 = .ok e ∧ t = s.setE2 e
  | .fin3 _ => ∃ e, selfUnitFinish s.params true s.e3 = .ok e ∧ t = s.setE3 e
  | .fin4 _ => ∃ e, deltaFinish s.params.stcap s.e4 = .ok e ∧ t = s.setE4 e
  | .fin5 _ => ∃ e, deltaFinish s.params.stcap s.e5 = .ok e ∧ t = s.setE5 e
  | .rst0 _ => t = s.setE0 {}
  | .rst1 width _ => t = s.setE1 { engineClear s.e1 with st := [], fin := false, wid := width.toNat }
  | .rst2 _ => t = s.setE2 (selfReset s.e2)
  | .rst3 _ => t = s.setE3 (selfReset s.e3)
  | .rst4 _ => t = s.setE4 {}
  | .rst5 _ => t = s.setE5 {}
  | .size0 _ | .size1 _ | .size2 _ | .size3 _ | .size4 _ | .size5 _ | .est0 _ | .est1 _ | .est2 _
  | .est3 _ | .est4 _ | .est5 _ =>
      ∃ r, t = s.setR r
  | .wto0 _ => ∃ e, boolFinish s.params.stcap s.e0 = .ok e ∧ s.ob.length + e.st.length ≤ s.params.obcap ∧
      t = (s.setE0 e).setOB (s.ob ++ e.st)
  | .wto1 _ => ∃ e, hybridFinish s.params s.e1 = .ok e ∧ s.ob.length + e.st.length ≤ s.params.obcap ∧
      t = (s.setE1 e).setOB (s.ob ++ e.st)
  | .wto2 _ => ∃ e, selfUnitFinish s.params false s.e2 = .ok e ∧ s.ob.length + e.hyb.st.length ≤ s.params.obcap ∧
      t = (s.setE2 e).setOB (s.ob ++ e.hyb.st)
  | .wto3 _ => ∃ e, selfUnitFinish s.params true s.e3 = .ok e ∧ s.ob.length + e.hyb.st.length ≤ s.params.obcap ∧
      t = (s.setE3 e).setOB (s.ob ++ e.hyb.st)
  | .wto4 _ => ∃ e, deltaFinish s.params.stcap s.e4 = .ok e ∧ s.ob.length + e.st.length ≤ s.params.obcap ∧
      t = (s.setE4 e).setOB (s.ob ++ e.st)
  | .wto5 _ => ∃ e, deltaFinish s.params.stcap s.e5 = .ok e ∧ s.ob.length + e.st.length ≤ s.params.obcap ∧
      t = (s.setE5 e).setOB (s.ob ++ e.st)
  | .dinit0 _ => t = s.setD0 { act := true, csr := s.rc, byte := 0, brem := 0 }
  | .dinit1 width _ => t = s.setD1 (hybridInit s.d1 s.rc width.toNat)
  | .dinit3 _ => ∃ d, hybridInitPrefixed s.ib s.d3 s.rc = .ok d ∧ t = s.setD3 d
  | .dinit4 _ => t = s.setD4 (deltaInit s.d4 s.rc)
  | .dinit5 _ => t = s.setD5 (deltaInit s.d5 s.rc)
  | .dec0 _ => ∃ x d, s.d0.act = true ∧ boolDecode s.ib s.d0 = .ok (x, d) ∧ t = (s.setD0 d).setR (boolResult x)
  | .dec1 _ => ∃ x d, s.d1.act = true ∧ rleNext s.ib s.d1 = .ok (x, d) ∧ t = (s.setD1 d).setR (zext64 x)
  | .dec3 _ => ∃ x d, s.d3.act = true ∧ rleNext s.ib s.d3 = .ok (x, d) ∧ t = (s.setD3 d).setR (zext64 x)
  | .dec4 _ => ∃ x d, s.d4.act = true ∧ deltaNext s.ib s.d4 = .ok (x, d) ∧ t = (s.setD4 d).setR (sext64 x)
  | .dec5 _ => ∃ x d, s.d5.act = true ∧ deltaNext s.ib s.d5 = .ok (x, d) ∧ t = (s.setD5 d).setR (x)

/-- The three ways a command can end: nothing changes, a fault is entered, or the command has its effect. -/
abbrev Ends (i : Instr) (s t : State) : Prop :=
  (s.fault = true ∧ t = s) ∨ (s.fault = false ∧ ∃ code, t = enterFault code (encode i) s) ∨
    (s.fault = false ∧ i.wf = true ∧ Effect i s t)

/-- A read primitive that takes `n` bytes and writes `R`. -/
theorem takeRC_setR {s t : State} {n : Nat} {f : Bytes → DWord}
    (h : (takeRC s n >>= fun x => Except.ok (x.2.setR (f x.1))) = .ok t) :
    ∃ c r, s.rc.Moved c ∧ t = (s.setRC c).setR r := by
  obtain ⟨x, hx, h⟩ := bind_eq_ok.1 h
  obtain ⟨hle, rfl⟩ := takeRC_eq_ok.1 hx
  injection h with h
  have hm := (take_moved ((take_eq_ok (m := s.ib)).2 ⟨hle, rfl⟩)).1
  exact ⟨_, _, hm, h.symm⟩

/-- A read primitive that reads a varint and writes `R`. -/
theorem readVarintRC_setR {s t : State} {n : Nat} (hn : 0 < n) {f : BitVec n → DWord}
    (h : (readVarintRC n s >>= fun x => Except.ok (x.2.setR (f x.1))) = .ok t) :
    ∃ c r, s.rc.Moved c ∧ t = (s.setRC c).setR r := by
  obtain ⟨x, hx, h⟩ := bind_eq_ok.1 h
  obtain ⟨u, c, hu, rfl⟩ := readVarintRC_eq_ok.1 hx
  injection h with h
  exact ⟨c, _, (readVarint_moved hn hu).1, h.symm⟩

/-- Every command is a body behind the prelude of rule R345, and where the body completes it has the command's effect. -/
theorem exec_body (i : Instr) (s : State) :
    ∃ body, exec i s = command i s body ∧ ∀ t, body = .ok t → Effect i s t := by
  cases i with
  | nop arg =>
    refine ⟨_, by unfold exec execNop; rfl, fun t hb => ?_⟩
    injection hb with hb; exact hb.symm
  | obclr arg =>
    refine ⟨_, by unfold exec execObclr; rfl, fun t hb => ?_⟩
    injection hb with hb; exact hb.symm
  | obpoke byte arg =>
    refine ⟨_, by unfold exec execObpoke; rfl, fun t hb => ?_⟩
    split at hb
    · cases hb
    · injection hb with hb; exact ⟨by omega, hb.symm⟩
  | rcatt arg =>
    refine ⟨_, by unfold exec execRcatt; rfl, fun t hb => ?_⟩
    split at hb
    · cases hb
    · injection hb with hb; exact ⟨by omega, hb.symm⟩
  | rcslice arg =>
    refine ⟨_, by unfold exec execRcslice; rfl, fun t hb => ?_⟩
    split at hb
    · cases hb
    · injection hb with hb; exact ⟨by omega, hb.symm⟩
  | rcunsl arg =>
    refine ⟨_, by unfold exec execRcunsl; rfl, fun t hb => ?_⟩
    injection hb with hb; exact hb.symm
  | vset lane arg =>
    refine ⟨_, by unfold exec execVset; rfl, fun t hb => ?_⟩
    injection hb with hb; exact hb.symm
  | bitw32 arg =>
    refine ⟨_, by unfold exec execBitw32; rfl, fun t hb => ?_⟩
    injection hb with hb; exact ⟨_, hb.symm⟩
  | bitw64 arg =>
    refine ⟨_, by unfold exec execBitw64; rfl, fun t hb => ?_⟩
    injection hb with hb; exact ⟨_, hb.symm⟩
  | zze32 arg =>
    refine ⟨_, by unfold exec execZze32; rfl, fun t hb => ?_⟩
    injection hb with hb; exact ⟨_, hb.symm⟩
  | zze64 arg =>
    refine ⟨_, by unfold exec execZze64; rfl, fun t hb => ?_⟩
    injection hb with hb; exact ⟨_, hb.symm⟩
  | zzd32 arg =>
    refine ⟨_, by unfold exec execZzd32; rfl, fun t hb => ?_⟩
    injection hb with hb; exact ⟨_, hb.symm⟩
  | zzd64 arg =>
    refine ⟨_, by unfold exec execZzd64; rfl, fun t hb => ?_⟩
    injection hb with hb; exact ⟨_, hb.symm⟩
  | wfix32 arg =>
    refine ⟨_, by unfold exec execWfix32; rfl, fun t hb => ?_⟩
    exact ⟨_, appendOB_eq_ok.1 hb⟩
  | wfix64 arg =>
    refine ⟨_, by unfold exec execWfix64; rfl, fun t hb => ?_⟩
    exact ⟨_, appendOB_eq_ok.1 hb⟩
  | wvar32 arg =>
    refine ⟨_, by unfold exec execWvar32; rfl, fun t hb => ?_⟩
    exact ⟨_, appendOB_eq_ok.1 hb⟩
  | wvar64 arg =>
    refine ⟨_, by unfold exec execWvar64; rfl, fun t hb => ?_⟩
    exact ⟨_, appendOB_eq_ok.1 hb⟩
  | wzz32 arg =>
    refine ⟨_, by unfold exec execWzz32; rfl, fun t hb => ?_⟩
    exact ⟨_, appendOB_eq_ok.1 hb⟩
  | wzz64 arg =>
    refine ⟨_, by unfold exec execWzz64; rfl, fun t hb => ?_⟩
    exact ⟨_, appendOB_eq_ok.1 hb⟩
  | wpack32 width count arg =>
    refine ⟨_, by unfold exec execWpack32; rfl, fun t hb => ?_⟩
    exact ⟨_, appendOB_eq_ok.1 hb⟩
  | wpack64 width count arg =>
    refine ⟨_, by unfold exec execWpack64; rfl, fun t hb => ?_⟩
    exact ⟨_, appendOB_eq_ok.1 hb⟩
  | wpbool arg =>
    refine ⟨_, by unfold exec execWpbool; rfl, fun t hb => ?_⟩
    exact ⟨_, appendOB_eq_ok.1 hb⟩
  | rfix32 arg =>
    refine ⟨_, by unfold exec execRfix32; rfl, fun t hb => ?_⟩
    exact takeRC_setR (f := fun b => zext64 (BitVec.ofNat 32 (leVal b))) hb
  | rfix64 arg =>
    refine ⟨_, by unfold exec execRfix64; rfl, fun t hb => ?_⟩
    exact takeRC_setR (f := fun b => BitVec.ofNat 64 (leVal b)) hb
  | rvar32 arg =>
    refine ⟨_, by unfold exec execRvar32; rfl, fun t hb => ?_⟩
    exact readVarintRC_setR (n := 32) (f := zext64) (by decide) hb
  | rvar64 arg =>
    refine ⟨_, by unfold exec execRvar64; rfl, fun t hb => ?_⟩
    exact readVarintRC_setR (n := 64) (f := id) (by decide) hb
  | rzz32 arg =>
    refine ⟨_, by unfold exec execRzz32; rfl, fun t hb => ?_⟩
    exact readVarintRC_setR (n := 32) (f := fun x => sext64 (unzigzag x)) (by decide) hb
  | rzz64 arg =>
    refine ⟨_, by unfold exec execRzz64; rfl, fun t hb => ?_⟩
    exact readVarintRC_setR (n := 64) (f := unzigzag) (by decide) hb
  | rpack32 width count arg =>
    refine ⟨_, by unfold exec execRpack32; rfl, fun t hb => ?_⟩
    obtain ⟨x, hx, hb⟩ := bind_eq_ok.1 hb
    obtain ⟨hle, rfl⟩ := takeRC_eq_ok.1 hx
    injection hb with hb
    have hm := (take_moved ((take_eq_ok (m := s.ib)).2 ⟨hle, rfl⟩)).1
    exact ⟨_, _, hm, by rw [List.length_map, unpack_length], hb.symm⟩
  | rpack64 width count arg =>
    refine ⟨_, by unfold exec execRpack64; rfl, fun t hb => ?_⟩
    obtain ⟨x, hx, hb⟩ := bind_eq_ok.1 hb
    obtain ⟨hle, rfl⟩ := takeRC_eq_ok.1 hx
    injection hb with hb
    have hm := (take_moved ((take_eq_ok (m := s.ib)).2 ⟨hle, rfl⟩)).1
    exact ⟨_, _, hm, by rw [List.length_map, unpack_length], hb.symm⟩
  | rpbool arg =>
    refine ⟨_, by unfold exec execRpbool; rfl, fun t hb => ?_⟩
    exact takeRC_setR (f := fun b => boolsResult (unpbool (b.headD 0))) hb
  | enc0 arg =>
    refine ⟨_, by unfold exec execEnc0; rfl, fun t hb => ?_⟩
    split at hb
    · cases hb
    · next hf =>
      obtain ⟨e, he, hb⟩ := bind_eq_ok.1 hb
      injection hb with hb
      exact ⟨e, by simpa using hf, he, hb.symm⟩
  | enc1 arg =>
    refine ⟨_, by unfold exec execEnc1; rfl, fun t hb => ?_⟩
    split at hb
    · cases hb
    · next hf =>
      obtain ⟨e, he, hb⟩ := bind_eq_ok.1 hb
      injection hb with hb
      exact ⟨e, by simpa using hf, he, hb.symm⟩
  | enc2 arg =>
    refine ⟨_, by unfold exec execEnc2; rfl, fun t hb => ?_⟩
    split at hb
    · cases hb
    · next hf =>
      obtain ⟨e, he, hb⟩ := bind_eq_ok.1 hb
      injection hb with hb
      exact ⟨e, by simpa using hf, he, hb.symm⟩
  | enc3 arg =>
    refine ⟨_, by unfold exec execEnc3; rfl, fun t hb => ?_⟩
    split at hb
    · cases hb
    · next hf =>
      obtain ⟨e, he, hb⟩ := bind_eq_ok.1 hb
      injection hb with hb
      exact ⟨e, by simpa using hf, he, hb.symm⟩
  | enc4 arg =>
    refine ⟨_, by unfold exec execEnc4; rfl, fun t hb => ?_⟩
    split at hb
    · cases hb
    · next hf =>
      obtain ⟨e, he, hb⟩ := bind_eq_ok.1 hb
      injection hb with hb
      exact ⟨e, by simpa using hf, he, hb.symm⟩
  | enc5 arg =>
    refine ⟨_, by unfold exec execEnc5; rfl, fun t hb => ?_⟩
    split at hb
    · cases hb
    · next hf =>
      obtain ⟨e, he, hb⟩ := bind_eq_ok.1 hb
      obtain ⟨e', he', hb⟩ := bind_eq_ok.1 hb
      injection hb with hb
      exact ⟨e, e', by simpa using hf, he, he', hb.symm⟩
  | fin0 arg =>
    refine ⟨_, by unfold exec execFin0; rfl, fun t hb => ?_⟩
    obtain ⟨e, he, hb⟩ := bind_eq_ok.1 hb
    injection hb with hb
    exact ⟨e, he, hb.symm⟩
  | fin1 arg =>
    refine ⟨_, by unfold exec execFin1; rfl, fun t hb => ?_⟩
    obtain ⟨e, he, hb⟩ := bind_eq_ok.1 hb
    injection hb with hb
    exact ⟨e, he, hb.symm⟩
  | fin2 arg =>
    refine ⟨_, by unfold exec execFin2; rfl, fun t hb => ?_⟩
    obtain ⟨e, he, hb⟩ := bind_eq_ok.1 hb
    injection hb with hb
    exact ⟨e, he, hb.symm⟩
  | fin3 arg =>
    refine ⟨_, by unfold exec execFin3; rfl, fun t hb => ?_⟩
    obtain ⟨e, he, hb⟩ := bind_eq_ok.1 hb
    injection hb with hb
    exact ⟨e, he, hb.symm⟩
  | fin4 arg =>
    refine ⟨_, by unfold exec execFin4; rfl, fun t hb => ?_⟩
    obtain ⟨e, he, hb⟩ := bind_eq_ok.1 hb
    injection hb with hb
    exact ⟨e, he, hb.symm⟩
  | fin5 arg =>
    refine ⟨_, by unfold exec execFin5; rfl, fun t hb => ?_⟩
    obtain ⟨e, he, hb⟩ := bind_eq_ok.1 hb
    injection hb with hb
    exact ⟨e, he, hb.symm⟩
  | rst0 arg =>
    refine ⟨_, by unfold exec execRst0; rfl, fun t hb => ?_⟩
    injection hb with hb; exact hb.symm
  | rst1 width arg =>
    refine ⟨_, by unfold exec execRst1; rfl, fun t hb => ?_⟩
    injection hb with hb; exact hb.symm
  | rst2 arg =>
    refine ⟨_, by unfold exec execRst2; rfl, fun t hb => ?_⟩
    injection hb with hb; exact hb.symm
  | rst3 arg =>
    refine ⟨_, by unfold exec execRst3; rfl, fun t hb => ?_⟩
    injection hb with hb; exact hb.symm
  | rst4 arg =>
    refine ⟨_, by unfold exec execRst4; rfl, fun t hb => ?_⟩
    injection hb with hb; exact hb.symm
  | rst5 arg =>
    refine ⟨_, by unfold exec execRst5; rfl, fun t hb => ?_⟩
    injection hb with hb; exact hb.symm
  | size0 arg =>
    refine ⟨_, by unfold exec execSize0; rfl, fun t hb => ?_⟩
    injection hb with hb; exact ⟨_, hb.symm⟩
  | size1 arg =>
    refine ⟨_, by unfold exec execSize1; rfl, fun t hb => ?_⟩
    injection hb with hb; exact ⟨_, hb.symm⟩
  | size2 arg =>
    refine ⟨_, by unfold exec execSize2; rfl, fun t hb => ?_⟩
    injection hb with hb; exact ⟨_, hb.symm⟩
  | size3 arg =>
    refine ⟨_, by unfold exec execSize3; rfl, fun t hb => ?_⟩
    injection hb with hb; exact ⟨_, hb.symm⟩
  | size4 arg =>
    refine ⟨_, by unfold exec execSize4; rfl, fun t hb => ?_⟩
    injection hb with hb; exact ⟨_, hb.symm⟩
  | size5 arg =>
    refine ⟨_, by unfold exec execSize5; rfl, fun t hb => ?_⟩
    injection hb with hb; exact ⟨_, hb.symm⟩
  | est0 arg =>
    refine ⟨_, by unfold exec execEst0; rfl, fun t hb => ?_⟩
    injection hb with hb; exact ⟨_, hb.symm⟩
  | est1 arg =>
    refine ⟨_, by unfold exec execEst1; rfl, fun t hb => ?_⟩
    injection hb with hb; exact ⟨_, hb.symm⟩
  | est2 arg =>
    refine ⟨_, by unfold exec execEst2; rfl, fun t hb => ?_⟩
    injection hb with hb; exact ⟨_, hb.symm⟩
  | est3 arg =>
    refine ⟨_, by unfold exec execEst3; rfl, fun t hb => ?_⟩
    injection hb with hb; exact ⟨_, hb.symm⟩
  | est4 arg =>
    refine ⟨_, by unfold exec execEst4; rfl, fun t hb => ?_⟩
    injection hb with hb; exact ⟨_, hb.symm⟩
  | est5 arg =>
    refine ⟨_, by unfold exec execEst5; rfl, fun t hb => ?_⟩
    injection hb with hb; exact ⟨_, hb.symm⟩
  | wto0 arg =>
    refine ⟨_, by unfold exec execWto0; rfl, fun t hb => ?_⟩
    obtain ⟨e, he, hb⟩ := bind_eq_ok.1 hb
    obtain ⟨hle, hb⟩ := appendOB_eq_ok.1 hb
    exact ⟨e, he, hle, hb⟩
  | wto1 arg =>
    refine ⟨_, by unfold exec execWto1; rfl, fun t hb => ?_⟩
    obtain ⟨e, he, hb⟩ := bind_eq_ok.1 hb
    obtain ⟨hle, hb⟩ := appendOB_eq_ok.1 hb
    exact ⟨e, he, hle, hb⟩
  | wto2 arg =>
    refine ⟨_, by unfold exec execWto2; rfl, fun t hb => ?_⟩
    obtain ⟨e, he, hb⟩ := bind_eq_ok.1 hb
    obtain ⟨hle, hb⟩ := appendOB_eq_ok.1 hb
    exact ⟨e, he, hle, hb⟩
  | wto3 arg =>
    refine ⟨_, by unfold exec execWto3; rfl, fun t hb => ?_⟩
    obtain ⟨e, he, hb⟩ := bind_eq_ok.1 hb
    obtain ⟨hle, hb⟩ := appendOB_eq_ok.1 hb
    exact ⟨e, he, hle, hb⟩
  | wto4 arg =>
    refine ⟨_, by unfold exec execWto4; rfl, fun t hb => ?_⟩
    obtain ⟨e, he, hb⟩ := bind_eq_ok.1 hb
    obtain ⟨hle, hb⟩ := appendOB_eq_ok.1 hb
    exact ⟨e, he, hle, hb⟩
  | wto5 arg =>
    refine ⟨_, by unfold exec execWto5; rfl, fun t hb => ?_⟩
    obtain ⟨e, he, hb⟩ := bind_eq_ok.1 hb
    obtain ⟨hle, hb⟩ := appendOB_eq_ok.1 hb
    exact ⟨e, he, hle, hb⟩
  | dinit0 arg =>
    refine ⟨_, by unfold exec execDinit0; rfl, fun t hb => ?_⟩
    injection hb with hb; exact hb.symm
  | dinit1 width arg =>
    refine ⟨_, by unfold exec execDinit1; rfl, fun t hb => ?_⟩
    injection hb with hb; exact hb.symm
  | dinit3 arg =>
    refine ⟨_, by unfold exec execDinit3; rfl, fun t hb => ?_⟩
    obtain ⟨e, he, hb⟩ := bind_eq_ok.1 hb
    injection hb with hb
    exact ⟨e, he, hb.symm⟩
  | dinit4 arg =>
    refine ⟨_, by unfold exec execDinit4; rfl, fun t hb => ?_⟩
    injection hb with hb; exact hb.symm
  | dinit5 arg =>
    refine ⟨_, by unfold exec execDinit5; rfl, fun t hb => ?_⟩
    injection hb with hb; exact hb.symm
  | dec0 arg =>
    refine ⟨_, by unfold exec execDec0; rfl, fun t hb => ?_⟩
    split at hb
    · next ha =>
      obtain ⟨⟨x, d⟩, hx, hb⟩ := bind_eq_ok.1 hb
      injection hb with hb
      exact ⟨x, d, ha, hx, hb.symm⟩
    · cases hb
  | dec1 arg =>
    refine ⟨_, by unfold exec execDec1; rfl, fun t hb => ?_⟩
    split at hb
    · next ha =>
      obtain ⟨⟨x, d⟩, hx, hb⟩ := bind_eq_ok.1 hb
      injection hb with hb
      exact ⟨x, d, ha, hx, hb.symm⟩
    · cases hb
  | dec3 arg =>
    refine ⟨_, by unfold exec execDec3; rfl, fun t hb => ?_⟩
    split at hb
    · next ha =>
      obtain ⟨⟨x, d⟩, hx, hb⟩ := bind_eq_ok.1 hb
      injection hb with hb
      exact ⟨x, d, ha, hx, hb.symm⟩
    · cases hb
  | dec4 arg =>
    refine ⟨_, by unfold exec execDec4; rfl, fun t hb => ?_⟩
    split at hb
    · next ha =>
      obtain ⟨⟨x, d⟩, hx, hb⟩ := bind_eq_ok.1 hb
      injection hb with hb
      exact ⟨x, d, ha, hx, hb.symm⟩
    · cases hb
  | dec5 arg =>
    refine ⟨_, by unfold exec execDec5; rfl, fun t hb => ?_⟩
    split at hb
    · next ha =>
      obtain ⟨⟨x, d⟩, hx, hb⟩ := bind_eq_ok.1 hb
      injection hb with hb
      exact ⟨x, d, ha, hx, hb.symm⟩
    · cases hb

/-- Every command ends in one of the three ways, with its effect where it completes. -/
theorem exec_ends {i : Instr} {s t : State} (h : exec i s = .next t) : Ends i s t := by
  obtain ⟨body, hc, hb⟩ := exec_body i s
  rcases command_cases (hc ▸ h) with ⟨hf, rfl⟩ | ⟨hf, hwf, hok⟩ | ⟨hf, _, code, _, rfl⟩ | ⟨hf, _, rfl⟩
  · exact .inl ⟨hf, rfl⟩
  · exact .inr (.inr ⟨hf, hwf, hb _ hok⟩)
  · exact .inr (.inl ⟨hf, _, rfl⟩)
  · exact .inr (.inl ⟨hf, _, rfl⟩)

/-- Every command is a body behind the prelude of rule R345. -/
theorem exec_eq_command (i : Instr) (s : State) : ∃ body, exec i s = command i s body :=
  let ⟨body, h, _⟩ := exec_body i s
  ⟨body, h⟩

/-- Every command ends with a next state (rules R10, R400). -/
theorem exec_next (i : Instr) (s : State) : ∃ t, exec i s = .next t := by
  obtain ⟨body, h⟩ := exec_eq_command i s
  rw [h]
  exact command_total i s body

/-- No command touches the fault registers as its effect, nor what is not the block's to change. -/
theorem effect_keeps {i : Instr} {s t : State} (h : Effect i s t) :
    t.fault = s.fault ∧ t.fcode = s.fcode ∧ t.fcmd = s.fcmd ∧ t.farg = s.farg ∧ t.ib = s.ib ∧ t.params = s.params ∧
      t.port = s.port := by
  cases i <;> simp only [Effect] at h <;> (repeat (first | subst h | (obtain ⟨_, h⟩ := h))) <;>
    exact ⟨rfl, rfl, rfl, rfl, rfl, rfl, rfl⟩

end Sys2Proof.Machine
end

