-- ==== Sys2Proof/Laws/PerInstr.lean ====
section
/-! SUPPORT. One lemma per command: the encoded word holds the opcode, width and count or lane fields of the command
where rule R100 puts them, a zero field, and the operand unchanged. -/

namespace Sys2Proof.Laws.EncodedFields

/-- The four fields of the encoded word, and the operand beside it (rule R100). -/
def Statement (i : Instr) : Prop :=
  opcField (encode i).cw = opcOf i ∧ widthField (encode i).cw = widthOf i ∧ imm8Field (encode i).cw = imm8Of i ∧
    zeroField (encode i).cw = 0 ∧ (encode i).arg = argOf i

/-- The fields of a word put together from its three operands come apart again. -/
theorem fields_mkWord (opc width imm8 : Byte) :
    opcField (mkWord opc width imm8) = opc ∧ widthField (mkWord opc width imm8) = width ∧
      imm8Field (mkWord opc width imm8) = imm8 ∧ zeroField (mkWord opc width imm8) = 0 := by
  refine ⟨?_, ?_, ?_, ?_⟩ <;> ext j hj <;>
    simp only [opcField, widthField, imm8Field, zeroField, mkWord, BitVec.getElem_extractLsb', BitVec.getLsbD_append]
  · simp [show ¬24 + j < 8 by omega, show ¬24 + j - 8 < 8 by omega, show ¬24 + j - 8 - 8 < 8 by omega,
      show 24 + j - 8 - 8 - 8 = j by omega, BitVec.getLsbD_eq_getElem hj]
  · simp [show ¬16 + j < 8 by omega, show ¬16 + j - 8 < 8 by omega, show 16 + j - 8 - 8 = j by omega, hj]
  · simp [show ¬8 + j < 8 by omega, show 8 + j - 8 = j by omega, hj]
  · simp [hj]

theorem of_mkWord (i : Instr) : Statement i :=
  have h := fields_mkWord (opcOf i) (widthOf i) (imm8Of i)
  ⟨h.1, h.2.1, h.2.2.1, h.2.2.2, rfl⟩

theorem nop (arg : DWord) : Statement (.nop arg) := of_mkWord _
theorem obclr (arg : DWord) : Statement (.obclr arg) := of_mkWord _
theorem obpoke (byte : Byte) (arg : DWord) : Statement (.obpoke byte arg) := of_mkWord _
theorem rcatt (arg : DWord) : Statement (.rcatt arg) := of_mkWord _
theorem rcslice (arg : DWord) : Statement (.rcslice arg) := of_mkWord _
theorem rcunsl (arg : DWord) : Statement (.rcunsl arg) := of_mkWord _
theorem vset (lane : Byte) (arg : DWord) : Statement (.vset lane arg) := of_mkWord _
theorem bitw32 (arg : DWord) : Statement (.bitw32 arg) := of_mkWord _
theorem bitw64 (arg : DWord) : Statement (.bitw64 arg) := of_mkWord _
theorem zze32 (arg : DWord) : Statement (.zze32 arg) := of_mkWord _
theorem zze64 (arg : DWord) : Statement (.zze64 arg) := of_mkWord _
theorem zzd32 (arg : DWord) : Statement (.zzd32 arg) := of_mkWord _
theorem zzd64 (arg : DWord) : Statement (.zzd64 arg) := of_mkWord _
theorem wfix32 (arg : DWord) : Statement (.wfix32 arg) := of_mkWord _
theorem wfix64 (arg : DWord) : Statement (.wfix64 arg) := of_mkWord _
theorem wvar32 (arg : DWord) : Statement (.wvar32 arg) := of_mkWord _
theorem wvar64 (arg : DWord) : Statement (.wvar64 arg) := of_mkWord _
theorem wzz32 (arg : DWord) : Statement (.wzz32 arg) := of_mkWord _
theorem wzz64 (arg : DWord) : Statement (.wzz64 arg) := of_mkWord _
theorem wpack32 (width count : Byte) (arg : DWord) : Statement (.wpack32 width count arg) := of_mkWord _
theorem wpack64 (width count : Byte) (arg : DWord) : Statement (.wpack64 width count arg) := of_mkWord _
theorem wpbool (arg : DWord) : Statement (.wpbool arg) := of_mkWord _
theorem rfix32 (arg : DWord) : Statement (.rfix32 arg) := of_mkWord _
theorem rfix64 (arg : DWord) : Statement (.rfix64 arg) := of_mkWord _
theorem rvar32 (arg : DWord) : Statement (.rvar32 arg) := of_mkWord _
theorem rvar64 (arg : DWord) : Statement (.rvar64 arg) := of_mkWord _
theorem rzz32 (arg : DWord) : Statement (.rzz32 arg) := of_mkWord _
theorem rzz64 (arg : DWord) : Statement (.rzz64 arg) := of_mkWord _
theorem rpack32 (width count : Byte) (arg : DWord) : Statement (.rpack32 width count arg) := of_mkWord _
theorem rpack64 (width count : Byte) (arg : DWord) : Statement (.rpack64 width count arg) := of_mkWord _
theorem rpbool (arg : DWord) : Statement (.rpbool arg) := of_mkWord _
theorem enc0 (arg : DWord) : Statement (.enc0 arg) := of_mkWord _
theorem enc1 (arg : DWord) : Statement (.enc1 arg) := of_mkWord _
theorem enc2 (arg : DWord) : Statement (.enc2 arg) := of_mkWord _
theorem enc3 (arg : DWord) : Statement (.enc3 arg) := of_mkWord _
theorem enc4 (arg : DWord) : Statement (.enc4 arg) := of_mkWord _
theorem enc5 (arg : DWord) : Statement (.enc5 arg) := of_mkWord _
theorem fin0 (arg : DWord) : Statement (.fin0 arg) := of_mkWord _
theorem fin1 (arg : DWord) : Statement (.fin1 arg) := of_mkWord _
theorem fin2 (arg : DWord) : Statement (.fin2 arg) := of_mkWord _
theorem fin3 (arg : DWord) : Statement (.fin3 arg) := of_mkWord _
theorem fin4 (arg : DWord) : Statement (.fin4 arg) := of_mkWord _
theorem fin5 (arg : DWord) : Statement (.fin5 arg) := of_mkWord _
theorem rst0 (arg : DWord) : Statement (.rst0 arg) := of_mkWord _
theorem rst1 (width : Byte) (arg : DWord) : Statement (.rst1 width arg) := of_mkWord _
theorem rst2 (arg : DWord) : Statement (.rst2 arg) := of_mkWord _
theorem rst3 (arg : DWord) : Statement (.rst3 arg) := of_mkWord _
theorem rst4 (arg : DWord) : Statement (.rst4 arg) := of_mkWord _
theorem rst5 (arg : DWord) : Statement (.rst5 arg) := of_mkWord _
theorem size0 (arg : DWord) : Statement (.size0 arg) := of_mkWord _
theorem size1 (arg : DWord) : Statement (.size1 arg) := of_mkWord _
theorem size2 (arg : DWord) : Statement (.size2 arg) := of_mkWord _
theorem size3 (arg : DWord) : Statement (.size3 arg) := of_mkWord _
theorem size4 (arg : DWord) : Statement (.size4 arg) := of_mkWord _
theorem size5 (arg : DWord) : Statement (.size5 arg) := of_mkWord _
theorem est0 (arg : DWord) : Statement (.est0 arg) := of_mkWord _
theorem est1 (arg : DWord) : Statement (.est1 arg) := of_mkWord _
theorem est2 (arg : DWord) : Statement (.est2 arg) := of_mkWord _
theorem est3 (arg : DWord) : Statement (.est3 arg) := of_mkWord _
theorem est4 (arg : DWord) : Statement (.est4 arg) := of_mkWord _
theorem est5 (arg : DWord) : Statement (.est5 arg) := of_mkWord _
theorem wto0 (arg : DWord) : Statement (.wto0 arg) := of_mkWord _
theorem wto1 (arg : DWord) : Statement (.wto1 arg) := of_mkWord _
theorem wto2 (arg : DWord) : Statement (.wto2 arg) := of_mkWord _
theorem wto3 (arg : DWord) : Statement (.wto3 arg) := of_mkWord _
theorem wto4 (arg : DWord) : Statement (.wto4 arg) := of_mkWord _
theorem wto5 (arg : DWord) : Statement (.wto5 arg) := of_mkWord _
theorem dinit0 (arg : DWord) : Statement (.dinit0 arg) := of_mkWord _
theorem dinit1 (width : Byte) (arg : DWord) : Statement (.dinit1 width arg) := of_mkWord _
theorem dinit3 (arg : DWord) : Statement (.dinit3 arg) := of_mkWord _
theorem dinit4 (arg : DWord) : Statement (.dinit4 arg) := of_mkWord _
theorem dinit5 (arg : DWord) : Statement (.dinit5 arg) := of_mkWord _
theorem dec0 (arg : DWord) : Statement (.dec0 arg) := of_mkWord _
theorem dec1 (arg : DWord) : Statement (.dec1 arg) := of_mkWord _
theorem dec3 (arg : DWord) : Statement (.dec3 arg) := of_mkWord _
theorem dec4 (arg : DWord) : Statement (.dec4 arg) := of_mkWord _
theorem dec5 (arg : DWord) : Statement (.dec5 arg) := of_mkWord _

end Sys2Proof.Laws.EncodedFields
end

