-- ==== Sys2Proof/Machine/Assembler.lean ====
section
/-! DEFINITION. How a command is written down (rule R108) and the two pseudo-instructions (rule R109). Neither is
hardware: they name lists of the commands the host presents. -/

namespace Sys2Proof.Machine

/-- A number in an operand, in decimal (rule R108); an operand stands for its 64-bit pattern. -/
def operandText {n : Nat} (x : BitVec n) : String := toString x.toNat

/-- A command in the assembler syntax of rule R108. An operand the command ignores is left out. -/
def asmText : Instr → String
  | .nop _ => "NOP"
  | .obclr _ => "OBCLR"
  | .obpoke byte arg => "OBPOKE " ++ operandText arg ++ ", " ++ operandText byte
  | .rcatt arg => "RCATT " ++ operandText arg
  | .rcslice arg => "RCSLICE " ++ operandText arg
  | .rcunsl _ => "RCUNSL"
  | .vset lane arg => "VSET " ++ operandText lane ++ ", " ++ operandText arg
  | .bitw32 arg => "BITW32 " ++ operandText arg
  | .bitw64 arg => "BITW64 " ++ operandText arg
  | .zze32 arg => "ZZE32 " ++ operandText arg
  | .zze64 arg => "ZZE64 " ++ operandText arg
  | .zzd32 arg => "ZZD32 " ++ operandText arg
  | .zzd64 arg => "ZZD64 " ++ operandText arg
  | .wfix32 arg => "WFIX32 " ++ operandText arg
  | .wfix64 arg => "WFIX64 " ++ operandText arg
  | .wvar32 arg => "WVAR32 " ++ operandText arg
  | .wvar64 arg => "WVAR64 " ++ operandText arg
  | .wzz32 arg => "WZZ32 " ++ operandText arg
  | .wzz64 arg => "WZZ64 " ++ operandText arg
  | .wpack32 width count _ => "WPACK32 w=" ++ operandText width ++ ", n=" ++ operandText count
  | .wpack64 width count _ => "WPACK64 w=" ++ operandText width ++ ", n=" ++ operandText count
  | .wpbool arg => "WPBOOL " ++ operandText arg
  | .rfix32 _ => "RFIX32"
  | .rfix64 _ => "RFIX64"
  | .rvar32 _ => "RVAR32"
  | .rvar64 _ => "RVAR64"
  | .rzz32 _ => "RZZ32"
  | .rzz64 _ => "RZZ64"
  | .rpack32 width count _ => "RPACK32 w=" ++ operandText width ++ ", n=" ++ operandText count
  | .rpack64 width count _ => "RPACK64 w=" ++ operandText width ++ ", n=" ++ operandText count
  | .rpbool _ => "RPBOOL"
  | .enc0 arg => "ENC.0 " ++ operandText arg
  | .enc1 arg => "ENC.1 " ++ operandText arg
  | .enc2 arg => "ENC.2 " ++ operandText arg
  | .enc3 arg => "ENC.3 " ++ operandText arg
  | .enc4 arg => "ENC.4 " ++ operandText arg
  | .enc5 arg => "ENC.5 " ++ operandText arg
  | .fin0 _ => "FIN.0"
  | .fin1 _ => "FIN.1"
  | .fin2 _ => "FIN.2"
  | .fin3 _ => "FIN.3"
  | .fin4 _ => "FIN.4"
  | .fin5 _ => "FIN.5"
  | .rst0 _ => "RST.0"
  | .rst1 width _ => "RST.1 w=" ++ operandText width
  | .rst2 _ => "RST.2"
  | .rst3 _ => "RST.3"
  | .rst4 _ => "RST.4"
  | .rst5 _ => "RST.5"
  | .size0 _ => "SIZE.0"
  | .size1 _ => "SIZE.1"
  | .size2 _ => "SIZE.2"
  | .size3 _ => "SIZE.3"
  | .size4 _ => "SIZE.4"
  | .size5 _ => "SIZE.5"
  | .est0 _ => "EST.0"
  | .est1 _ => "EST.1"
  | .est2 _ => "EST.2"
  | .est3 _ => "EST.3"
  | .est4 _ => "EST.4"
  | .est5 _ => "EST.5"
  | .wto0 _ => "WTO.0"
  | .wto1 _ => "WTO.1"
  | .wto2 _ => "WTO.2"
  | .wto3 _ => "WTO.3"
  | .wto4 _ => "WTO.4"
  | .wto5 _ => "WTO.5"
  | .dinit0 _ => "DINIT.0"
  | .dinit1 width _ => "DINIT.1 w=" ++ operandText width
  | .dinit3 _ => "DINIT.3"
  | .dinit4 _ => "DINIT.4"
  | .dinit5 _ => "DINIT.5"
  | .dec0 _ => "DEC.0"
  | .dec1 _ => "DEC.1"
  | .dec3 _ => "DEC.3"
  | .dec4 _ => "DEC.4"
  | .dec5 _ => "DEC.5"

/-- `VLOAD a0, a1, .., a(k−1)`: one `VSET` for each value, from lane `i` on (rule R109). -/
def vloadFrom : Nat → List DWord → List Instr
  | _, [] => []
  | i, a :: as => .vset (BitVec.ofNat 8 i) a :: vloadFrom (i + 1) as

/-- `VLOAD a0, a1, .., a(k−1)` with at most 128 values (rule R109). -/
def vload (values : List DWord) : List Instr := vloadFrom 0 values

/-- `ENCSEQ.u a0, a1, .., a(k−1)`: one `ENC.u` for each value; there is no unit above 5 (rule R109). -/
def encseq (u : Fin 6) (values : List DWord) : List Instr :=
  values.map fun a =>
    match u with
    | 0 => .enc0 a
    | 1 => .enc1 a
    | 2 => .enc2 a
    | 3 => .enc3 a
    | 4 => .enc4 a
    | 5 => .enc5 a

end Sys2Proof.Machine
end

