-- ==== Sys2Proof/Tests/Slice0.lean ====
section
/-! SUPPORT. The author's own tests. Expected results come from the worked examples of the command rules and from
spec/95_test_vectors.md (section named at each test); the witnesses at the end show, for every obligation with
hypotheses, a concrete state and operands that meet them. -/

namespace Sys2Proof.Tests

-- Each test is checked before the next one starts: started together they run the checker out of threads.
set_option Elab.async false

open Sys2Proof.Machine

/-! ### Helpers -/

/-- The state after reset with the bytes `b` in IB and attached (rule R134). -/
def attached (b : Bytes) : State :=
  { State.reset with ib := State.reset.ib.writeBytes 0 b, rc := ⟨0, BitVec.ofNat 32 b.length⟩,
                     rcend := BitVec.ofNat 32 b.length }

/-- A cursor over the first `n` bytes of IB. -/
def start (n : Nat) : Cursor := ⟨0, BitVec.ofNat 32 n⟩

/-- The state after reset with `b` in OB. -/
def written (b : Bytes) : State := { State.reset with ob := b }

/-- The state after reset with the given first lanes. -/
def loaded (xs : List DWord) : State := { State.reset with v := setLanes State.reset.v 0 xs }

/-- What a command leaves, where it ends in a next state. -/
def after {α : Type} (i : Instr) (s : State) (f : State → α) : Option α := (nextOf (exec i s)).map f

/-- The fault code a command leaves. -/
def codeOf (s : State) : Byte := s.fcode

/-! ### Well-formedness (rule R102) -/

theorem test_wf_refuses_vset_lane_128 : (Instr.vset 128 0).wf = false := by decide
theorem test_wf_refuses_wpack32_width_33 : (Instr.wpack32 33 0 0).wf = false := by decide
theorem test_wf_refuses_wpack32_count_129 : (Instr.wpack32 0 129 0).wf = false := by decide
theorem test_wf_refuses_wpack64_width_65 : (Instr.wpack64 65 0 0).wf = false := by decide
theorem test_wf_refuses_wpack64_count_129 : (Instr.wpack64 0 129 0).wf = false := by decide
theorem test_wf_refuses_rpack32_width_33 : (Instr.rpack32 33 0 0).wf = false := by decide
theorem test_wf_refuses_rpack32_count_129 : (Instr.rpack32 0 129 0).wf = false := by decide
theorem test_wf_refuses_rpack64_width_65 : (Instr.rpack64 65 0 0).wf = false := by decide
theorem test_wf_refuses_rpack64_count_129 : (Instr.rpack64 0 129 0).wf = false := by decide
theorem test_wf_refuses_rst1_width_33 : (Instr.rst1 33 0).wf = false := by decide
theorem test_wf_refuses_dinit1_width_33 : (Instr.dinit1 33 0).wf = false := by decide
theorem test_wf_admits_limits :
    (Instr.vset 127 0).wf = true ∧ (Instr.wpack32 32 128 0).wf = true ∧ (Instr.wpack64 64 128 0).wf = true ∧
      (Instr.rpack32 32 128 0).wf = true ∧ (Instr.rpack64 64 128 0).wf = true ∧ (Instr.rst1 32 0).wf = true ∧
      (Instr.dinit1 32 0).wf = true ∧ (Instr.obpoke 255 0).wf = true := by decide

/-! ### Decoding: every command from a word written out (rules R104, R108, and the rule of each command) -/

/-- Rules R131 to R137. -/
theorem test_decode_management :
    decodeTableWord 32 0x00000000 = some (.nop 0) ∧
    decodeTableWord 32 0x01000000 = some (.obclr 0) ∧
    decodeTableWord 32 0x02007F00 = some (.obpoke 0x7F 0) ∧
    decodeTableWord 32 0x03000000 = some (.rcatt 0) ∧
    decodeTableWord 32 0x04000000 = some (.rcslice 0) ∧
    decodeTableWord 32 0x05000000 = some (.rcunsl 0) ∧
    decodeTableWord 32 0x06000300 = some (.vset 3 0) := by decide

/-- Rules R138 to R143. -/
theorem test_decode_pure :
    decodeTableWord 32 0x10000000 = some (.bitw32 0) ∧
    decodeTableWord 32 0x11000000 = some (.bitw64 0) ∧
    decodeTableWord 32 0x12000000 = some (.zze32 0) ∧
    decodeTableWord 32 0x13000000 = some (.zze64 0) ∧
    decodeTableWord 32 0x14000000 = some (.zzd32 0) ∧
    decodeTableWord 32 0x15000000 = some (.zzd64 0) := by decide

/-- Rules R161 to R169. -/
theorem test_decode_write :
    decodeTableWord 32 0x20000000 = some (.wfix32 0) ∧
    decodeTableWord 32 0x21000000 = some (.wfix64 0) ∧
    decodeTableWord 32 0x22000000 = some (.wvar32 0) ∧
    decodeTableWord 32 0x23000000 = some (.wvar64 0) ∧
    decodeTableWord 32 0x24000000 = some (.wzz32 0) ∧
    decodeTableWord 32 0x25000000 = some (.wzz64 0) ∧
    decodeTableWord 32 0x26030800 = some (.wpack32 3 8 0) ∧
    decodeTableWord 32 0x27210200 = some (.wpack64 33 2 0) ∧
    decodeTableWord 32 0x28000000 = some (.wpbool 0) := by decide

/-- Rules R181 to R189. -/
theorem test_decode_read :
    decodeTableWord 32 0x30000000 = some (.rfix32 0) ∧
    decodeTableWord 32 0x31000000 = some (.rfix64 0) ∧
    decodeTableWord 32 0x32000000 = some (.rvar32 0) ∧
    decodeTableWord 32 0x33000000 = some (.rvar64 0) ∧
    decodeTableWord 32 0x34000000 = some (.rzz32 0) ∧
    decodeTableWord 32 0x35000000 = some (.rzz64 0) ∧
    decodeTableWord 32 0x36030800 = some (.rpack32 3 8 0) ∧
    decodeTableWord 32 0x37210200 = some (.rpack64 33 2 0) ∧
    decodeTableWord 32 0x38000000 = some (.rpbool 0) := by decide

/-- Rules R202, R230, R237, R243, R290, R296. -/
theorem test_decode_enc :
    decodeTableWord 32 0x40000000 = some (.enc0 0) ∧
    decodeTableWord 32 0x41000000 = some (.enc1 0) ∧
    decodeTableWord 32 0x42000000 = some (.enc2 0) ∧
    decodeTableWord 32 0x43000000 = some (.enc3 0) ∧
    decodeTableWord 32 0x44000000 = some (.enc4 0) ∧
    decodeTableWord 32 0x45000000 = some (.enc5 0) := by decide

/-- Rules R203, R231, R238, R244, R291, R297. -/
theorem test_decode_fin :
    decodeTableWord 32 0x50000000 = some (.fin0 0) ∧
    decodeTableWord 32 0x51000000 = some (.fin1 0) ∧
    decodeTableWord 32 0x52000000 = some (.fin2 0) ∧
    decodeTableWord 32 0x53000000 = some (.fin3 0) ∧
    decodeTableWord 32 0x54000000 = some (.fin4 0) ∧
    decodeTableWord 32 0x55000000 = some (.fin5 0) := by decide

/-- Rules R205, R233, R240, R246, R293, R299. -/
theorem test_decode_size :
    decodeTableWord 32 0x70000000 = some (.size0 0) ∧
    decodeTableWord 32 0x71000000 = some (.size1 0) ∧
    decodeTableWord 32 0x72000000 = some (.size2 0) ∧
    decodeTableWord 32 0x73000000 = some (.size3 0) ∧
    decodeTableWord 32 0x74000000 = some (.size4 0) ∧
    decodeTableWord 32 0x75000000 = some (.size5 0) := by decide

/-- Rules R206, R234, R241, R247, R294, R300. -/
theorem test_decode_est :
    decodeTableWord 32 0x80000000 = some (.est0 0) ∧
    decodeTableWord 32 0x81000000 = some (.est1 0) ∧
    decodeTableWord 32 0x82000000 = some (.est2 0) ∧
    decodeTableWord 32 0x83000000 = some (.est3 0) ∧
    decodeTableWord 32 0x84000000 = some (.est4 0) ∧
    decodeTableWord 32 0x85000000 = some (.est5 0) := by decide

/-- Rules R207, R235, R242, R248, R295, R301. -/
theorem test_decode_wto :
    decodeTableWord 32 0x90000000 = some (.wto0 0) ∧
    decodeTableWord 32 0x91000000 = some (.wto1 0) ∧
    decodeTableWord 32 0x92000000 = some (.wto2 0) ∧
    decodeTableWord 32 0x93000000 = some (.wto3 0) ∧
    decodeTableWord 32 0x94000000 = some (.wto4 0) ∧
    decodeTableWord 32 0x95000000 = some (.wto5 0) := by decide

/-- Rules R204, R232, R239, R245, R292, R298. -/
theorem test_decode_rst :
    decodeTableWord 32 0x60000000 = some (.rst0 0) ∧
    decodeTableWord 32 0x61030000 = some (.rst1 3 0) ∧
    decodeTableWord 32 0x62000000 = some (.rst2 0) ∧
    decodeTableWord 32 0x63000000 = some (.rst3 0) ∧
    decodeTableWord 32 0x64000000 = some (.rst4 0) ∧
    decodeTableWord 32 0x65000000 = some (.rst5 0) := by decide

/-- Rules R208, R262, R264, R324, R326. -/
theorem test_decode_dinit :
    decodeTableWord 32 0xA0000000 = some (.dinit0 0) ∧
    decodeTableWord 32 0xA1030000 = some (.dinit1 3 0) ∧
    decodeTableWord 32 0xA3000000 = some (.dinit3 0) ∧
    decodeTableWord 32 0xA4000000 = some (.dinit4 0) ∧
    decodeTableWord 32 0xA5000000 = some (.dinit5 0) := by decide

/-- Rules R209, R263, R265, R325, R327. -/
theorem test_decode_dec :
    decodeTableWord 32 0xB0000000 = some (.dec0 0) ∧
    decodeTableWord 32 0xB1000000 = some (.dec1 0) ∧
    decodeTableWord 32 0xB3000000 = some (.dec3 0) ∧
    decodeTableWord 32 0xB4000000 = some (.dec4 0) ∧
    decodeTableWord 32 0xB5000000 = some (.dec5 0) := by decide

/-- The operand arrives beside the word (rule R100). -/
theorem test_decode_operand :
    decode ⟨0x03000000, 14⟩ = .ok (.rcatt 14) ∧ decode ⟨0x06007F00, 9⟩ = .ok (.vset 127 9) := by
  decide

/-- Words that are no command, each refused by name (rule R105; section V9). -/
theorem test_decode_refuses :
    decode ⟨0xA2000000, 0⟩ = .error .unknownOpcode ∧ decode ⟨0x00000001, 0⟩ = .error .zeroFieldSet ∧
    decode ⟨0x00010000, 0⟩ = .error .widthNotZero ∧ decode ⟨0x00000100, 0⟩ = .error .imm8NotZero ∧
    decode ⟨0x26210000, 0⟩ = .error .widthOutOfRange ∧ decode ⟨0x06008000, 0⟩ = .error .imm8OutOfRange := by decide

/-! ### One step of each command -/

/-- Section V1, with R131. -/
theorem test_nop :
    nextOf (exec (.nop 5) (attached [0xAC, 0x02])) = some (attached [0xAC, 0x02]) := by decide +kernel

/-- R132. -/
theorem test_obclr :
    after (.obclr 0) (written [0x01, 0x02, 0x03]) (·.ob) = some [] := by decide +kernel

/-- R133. -/
theorem test_obpoke :
    after (.obpoke 0x7F 1) (written [0xAC, 0x02]) (·.ob) = some [0xAC, 0x7F] := by decide +kernel

/-- Section V1. -/
theorem test_obpoke_bad_range :
    after (.obpoke 0x7F 2) (written [0xAC, 0x02]) (fun t => (t.ob, codeOf t)) =
      some ([0xAC, 0x02], 0x12) := by decide +kernel

/-- R134: the other decoder fields stay. -/
theorem test_rcatt :
    after (.rcatt 14) { State.reset with d4 := { act := true, remv := 3 } }
      (fun t => (t.rc, t.rcend, t.d4.act, t.d4.remv)) =
      some (⟨0, 14⟩, 14, false, 3) := by decide +kernel

/-- Section V1. -/
theorem test_rcatt_bad_range :
    after (.rcatt 65537) State.reset codeOf = some 0x12 := by decide +kernel

/-- R135. -/
theorem test_rcslice :
    after (.rcslice 5) { State.reset with rc := ⟨1, 14⟩, rcend := 14 } (fun t => (t.rc, t.rcend)) =
      some (⟨1, 6⟩, 14) := by decide +kernel

/-- Section V1. -/
theorem test_rcslice_past_end :
    after (.rcslice 6) { State.reset with rc := ⟨1, 6⟩, rcend := 14 } (fun t => (t.rc, codeOf t)) =
      some (⟨1, 6⟩, 0x02) := by decide +kernel

/-- R136. -/
theorem test_rcunsl :
    after (.rcunsl 0) { State.reset with rc := ⟨4, 6⟩, rcend := 14 } (·.rc) = some ⟨4, 14⟩ := by decide +kernel

/-- R137. -/
theorem test_vset :
    after (.vset 3 7) State.reset (fun t => (t.v[2], t.v[3], t.v[4])) = some (0, 7, 0) := by decide +kernel

/-- Section V1. -/
theorem test_bitw32 :
    after (.bitw32 300) State.reset (·.r) = some 9 := by decide +kernel

/-- Section V1. -/
theorem test_bitw32_ignores_upper :
    after (.bitw32 0xFFFFFFFF00000005) State.reset (·.r) = some 3 := by decide +kernel

/-- Section V1. -/
theorem test_bitw64 :
    after (.bitw64 0x100000000) State.reset (·.r) = some 33 := by decide +kernel

/-- Section V1. -/
theorem test_bitw64_zero :
    after (.bitw64 0) State.reset (·.r) = some 0 := by decide +kernel

/-- Section V1. -/
theorem test_zze32 :
    after (.zze32 0xFFFFFFFD) State.reset (·.r) = some 5 := by decide +kernel

/-- Section V1. -/
theorem test_zze32_min :
    after (.zze32 0xFFFFFFFF80000000) State.reset (·.r) = some 0xFFFFFFFF := by decide +kernel

/-- Section V1. -/
theorem test_zze64 :
    after (.zze64 2147483648) State.reset (·.r) = some 4294967296 := by decide +kernel

/-- Section V1. -/
theorem test_zze64_min :
    after (.zze64 0x8000000000000000) State.reset (·.r) = some 0xFFFFFFFFFFFFFFFF := by decide +kernel

/-- Section V1. -/
theorem test_zzd32 :
    after (.zzd32 5) State.reset (·.r) = some 0xFFFFFFFFFFFFFFFD := by decide +kernel

/-- Section V1. -/
theorem test_zzd32_max :
    after (.zzd32 0xFFFFFFFF) State.reset (·.r) = some 0xFFFFFFFF80000000 := by decide +kernel

/-- Section V1. -/
theorem test_zzd64 :
    after (.zzd64 4294967296) State.reset (·.r) = some 2147483648 := by decide +kernel

/-- Section V1. -/
theorem test_zzd64_odd :
    after (.zzd64 1) State.reset (·.r) = some 0xFFFFFFFFFFFFFFFF := by decide +kernel

/-- Section V2. -/
theorem test_wfix32 :
    after (.wfix32 0xFFFFFFFFFFFFFFFE) (written [0x55]) (·.ob) =
      some [0x55, 0xFE, 0xFF, 0xFF, 0xFF] := by decide +kernel

/-- Section V2. -/
theorem test_wfix64 :
    after (.wfix64 0x0102030405060708) (written [0x55]) (·.ob) =
      some [0x55, 0x08, 0x07, 0x06, 0x05, 0x04, 0x03, 0x02, 0x01] := by decide +kernel

/-- Section V2. -/
theorem test_wvar32 :
    after (.wvar32 300) (written [0x55]) (·.ob) = some [0x55, 0xAC, 0x02] := by decide +kernel

/-- Section V2. -/
theorem test_wvar32_all_ones :
    after (.wvar32 0xFFFFFFFFFFFFFFFF) (written [0x55]) (·.ob) =
      some [0x55, 0xFF, 0xFF, 0xFF, 0xFF, 0x0F] := by decide +kernel

/-- Section V2. -/
theorem test_wvar64 :
    after (.wvar64 0x800000000) (written [0x55]) (·.ob) =
      some [0x55, 0x80, 0x80, 0x80, 0x80, 0x80, 0x01] := by decide +kernel

/-- Section V2. -/
theorem test_wvar64_zero :
    after (.wvar64 0) (written [0x55]) (·.ob) = some [0x55, 0x00] := by decide +kernel

/-- Section V2. -/
theorem test_wzz32 :
    after (.wzz32 0xFFFFFED4) (written [0x55]) (·.ob) = some [0x55, 0xD7, 0x04] := by decide +kernel

/-- Section V2. -/
theorem test_wzz64 :
    after (.wzz64 0x00000000FFFFFFFF) (written [0x55]) (·.ob) =
      some [0x55, 0xFE, 0xFF, 0xFF, 0xFF, 0x1F] := by decide +kernel

/-- Section V2. -/
theorem test_wzz64_min :
    after (.wzz64 0x8000000000000000) (written [0x55]) (·.ob) =
      some [0x55, 0xFF, 0xFF, 0xFF, 0xFF, 0xFF, 0xFF, 0xFF, 0xFF, 0xFF, 0x01] := by decide +kernel

/-- Section V2. -/
theorem test_wpbool :
    after (.wpbool 0x8D) (written [0x55]) (·.ob) = some [0x55, 0xB1] := by decide +kernel

/-- R160, R346. -/
theorem test_wpbool_capacity :
    after (.wpbool 1) { written [0x55] with params := { obcap := 1 } }
      (fun t => (t.ob, codeOf t, t.fcmd, t.farg)) =
      some ([0x55], 0x20, 0x28000000, 1) := by decide +kernel

/-- Section V2; lane bits 63:32 are ignored (R167). -/
theorem test_wpack32 :
    after (.wpack32 12 3 0) (loaded [0xFFFFFFFF00000ABC, 0x123, 0xFFF]) (·.ob) =
      some [0xBC, 0x3A, 0x12, 0xFF, 0x0F] := by decide +kernel

/-- Section V2. -/
theorem test_wpack32_truncates :
    after (.wpack32 4 2 0) (loaded [0x1F, 2]) (·.ob) = some [0x2F] := by decide +kernel

/-- R168. -/
theorem test_wpack64 :
    after (.wpack64 33 2 0) (loaded [0x1FFFFFFFE, 0]) (·.ob) =
      some [0xFE, 0xFF, 0xFF, 0xFF, 0x01, 0x00, 0x00, 0x00, 0x00] := by decide +kernel

/-- Section V3. -/
theorem test_rfix32 :
    after (.rfix32 0) (attached [0xFE, 0xFF, 0xFF, 0xFF]) (fun t => (t.r, t.rc.pos)) =
      some (0x00000000FFFFFFFE, 4) := by decide +kernel

/-- Section V3. -/
theorem test_rfix64 :
    after (.rfix64 0) (attached [0x08, 0x07, 0x06, 0x05, 0x04, 0x03, 0x02, 0x01]) (fun t => (t.r, t.rc.pos)) =
      some (0x0102030405060708, 8) := by decide +kernel

/-- Section V3. -/
theorem test_rvar32 :
    after (.rvar32 0) (attached [0xAC, 0x02]) (fun t => (t.r, t.rc.pos)) = some (300, 2) := by decide +kernel

/-- Section V3. -/
theorem test_rvar64 :
    after (.rvar64 0) (attached [0xFF, 0xFF, 0xFF, 0xFF, 0x1F]) (fun t => (t.r, t.rc.pos)) =
      some (8589934591, 5) := by decide +kernel

/-- Section V3. -/
theorem test_rzz32 :
    after (.rzz32 0) (attached [0xFF, 0xFF, 0xFF, 0xFF, 0x0F]) (fun t => (t.r, t.rc.pos)) =
      some (0xFFFFFFFF80000000, 5) := by decide +kernel

/-- Section V3. -/
theorem test_rzz64 :
    after (.rzz64 0) (attached [0x80, 0x80, 0x80, 0x80, 0x10]) (fun t => (t.r, t.rc.pos)) =
      some (2147483648, 5) := by decide +kernel

/-- Section V3. -/
theorem test_rpbool :
    after (.rpbool 0) (attached [0xB1]) (fun t => (t.r, t.rc.pos)) = some (0x8D, 1) := by decide +kernel

/-- R181: three bytes left. -/
theorem test_rfix32_past_end :
    after (.rfix32 0) (attached [0x01, 0x02, 0x03]) (fun t => (t.r, t.rc.pos, codeOf t)) =
      some (0, 0, 0x02) := by decide +kernel

/-- R183. -/
theorem test_rvar32_excess :
    after (.rvar32 0) (attached [0xFF, 0xFF, 0xFF, 0xFF, 0x1F]) codeOf = some 0x03 := by decide +kernel

/-- R184. -/
theorem test_rvar64_unterminated :
    after (.rvar64 0) (attached [0x80, 0x80, 0x80, 0x80, 0x80, 0x80, 0x80, 0x80, 0x80, 0x80]) codeOf =
      some 0x01 := by decide +kernel

/-- R183, R185. -/
theorem test_rzz32_past_end :
    after (.rzz32 0) (attached [0x80, 0x80]) codeOf = some 0x02 := by decide +kernel

/-- R187. -/
theorem test_rpack32 :
    after (.rpack32 3 8 0) (attached [0x88, 0xC6, 0xFA]) (fun t => (t.v.toList.take 9, t.rc.pos)) =
      some ([0, 1, 2, 3, 4, 5, 6, 7, 0], 3) := by decide +kernel

/-- R187: width 0 reads nothing. -/
theorem test_rpack32_keeps_other_lanes :
    after (.rpack32 0 1 0) (loaded [5, 6]) (fun t => (t.v.toList.take 2, t.rc.pos)) =
      some ([0, 6], 0) := by decide +kernel

/-- R188. -/
theorem test_rpack64 :
    after (.rpack64 33 2 0) (attached [0xFE, 0xFF, 0xFF, 0xFF, 0x01, 0x00, 0x00, 0x00, 0x00])
      (fun t => (t.v.toList.take 2, t.rc.pos)) =
      some ([0x1FFFFFFFE, 0], 9) := by decide +kernel

/-- R202. -/
theorem test_enc0 :
    after (.enc0 1) { State.reset with e0 := { bacc := 0x80, bcnt := 2 } } (·.e0) =
      some { bacc := 0xA0, bcnt := 3 } := by decide +kernel

/-- R210, the worked trace. -/
theorem test_enc0_eighth :
    after (.enc0 1) { State.reset with e0 := { bacc := 0xB0, bcnt := 7 } } (·.e0) =
      some { st := [0xB1] } := by decide +kernel

/-- R203. -/
theorem test_fin0 :
    after (.fin0 0) { State.reset with e0 := { bacc := 0xA0, bcnt := 3 } } (·.e0) =
      some { st := [0xA0], fin := true } := by decide +kernel

/-- R204. -/
theorem test_rst0 :
    after (.rst0 0) { State.reset with e0 := { st := [0xA0], fin := true } } (·.e0) = some {} := by decide +kernel

/-- R205. -/
theorem test_size0 :
    after (.size0 0) { State.reset with e0 := { st := [0xB1, 0xC0], fin := true } } (·.r) =
      some 2 := by decide +kernel

/-- R206. -/
theorem test_est0 :
    after (.est0 0) { State.reset with e0 := { st := [0xB1], bacc := 0x80, bcnt := 1 } } (·.r) =
      some 2 := by decide +kernel

/-- R207. -/
theorem test_wto0 :
    after (.wto0 0) { State.reset with ob := [0x55], e0 := { st := [0xB1], bacc := 0xC0, bcnt := 2 } }
      (fun t => (t.ob, t.e0.fin)) =
      some ([0x55, 0xB1, 0xC0], true) := by decide +kernel

/-- R201: the finish step is discarded too. -/
theorem test_wto0_capacity :
    after (.wto0 0)
      { State.reset with params := { obcap := 1 }, e0 := { st := [0xB1], bacc := 0xC0, bcnt := 2 } }
      (fun t => (t.ob, t.e0.fin, t.e0.bcnt, codeOf t)) =
      some ([], false, 2, 0x20) := by decide +kernel

/-- R208. -/
theorem test_dinit0 :
    after (.dinit0 0) { State.reset with rc := ⟨4, 6⟩, rcend := 9, d0 := { byte := 7, brem := 3 } } (·.d0) =
      some { act := true, csr := ⟨4, 6⟩ } := by decide +kernel

/-- R209. -/
theorem test_dec0 :
    after (.dec0 0) { attached [0xB1, 0xC0] with d0 := { act := true, csr := start 2 } }
      (fun t => (t.r, t.d0, t.rc.pos)) =
      some (1, { act := true, csr := ⟨1, 2⟩, byte := 0xB1, brem := 7 }, 0) := by decide +kernel

/-- R209. -/
theorem test_dec0_next :
    after (.dec0 0) { State.reset with r := 1, d0 := { act := true, csr := ⟨1, 2⟩, byte := 0xB1, brem := 7 } }
      (fun t => (t.r, t.d0.brem)) =
      some (0, 6) := by decide +kernel

/-- R230: 8 is below the threshold 9. -/
theorem test_enc1_absorbs :
    after (.enc1 1) { State.reset with e1 := { wid := 3, rv := 4, rn := 8 } } (·.e1) =
      some { wid := 3, rv := 1, rn := 1, pr := [0x24, 0x49, 0x92], noct := 1 } := by decide +kernel

/-- R249 item 1: nine 4s. -/
theorem test_enc1_flushes_run :
    after (.enc1 1) { State.reset with e1 := { wid := 3, rv := 4, rn := 9 } } (·.e1) =
      some { wid := 3, rv := 1, rn := 1, st := [0x12, 0x04] } := by decide +kernel

/-- R231. -/
theorem test_fin1 :
    after (.fin1 0)
      { State.reset with e1 := { wid := 3, rv := 1, rn := 2, pr := [0x24, 0x49, 0x92], noct := 1 } }
      (fun t => (t.e1.st, t.e1.fin, t.e1.rn, t.e1.noct)) =
      some ([0x03, 0x24, 0x49, 0x92, 0x04, 0x01], true, 0, 0) := by decide +kernel

/-- R249, the worked trace. -/
theorem test_fin1_pads :
    after (.fin1 0)
      { State.reset with e1 := { wid := 3, oct := [3, 3, 3, 5], pr := [0xD1, 0xB6, 0x6D], noct := 1 } }
      (·.e1.st) =
      some [0x05, 0xD1, 0xB6, 0x6D, 0xDB, 0x0A, 0x00] := by decide +kernel

/-- R232. -/
theorem test_rst1 :
    after (.rst1 8 0) { State.reset with e1 := { wid := 3, rv := 1, rn := 2, st := [1], fin := true } } (·.e1) =
      some { wid := 8 } := by decide +kernel

/-- R233. -/
theorem test_size1 :
    after (.size1 0) { State.reset with e1 := { st := [0x03, 0x24, 0x49, 0x92, 0x04, 0x01] } } (·.r) =
      some 6 := by decide +kernel

/-- R234. -/
theorem test_est1 :
    after (.est1 0)
      { State.reset with e1 := { wid := 3, rv := 1, rn := 1, pr := [0x24, 0x49, 0x92], noct := 1 } }
      (·.r) =
      some 6 := by decide +kernel

/-- R235. -/
theorem test_wto1 :
    after (.wto1 0)
      { State.reset with e1 := { wid := 3, rv := 1, rn := 2, pr := [0x24, 0x49, 0x92], noct := 1 } }
      (fun t => (t.ob, t.e1.fin)) =
      some ([0x03, 0x24, 0x49, 0x92, 0x04, 0x01], true) := by decide +kernel

/-- R237. -/
theorem test_enc2 :
    after (.enc2 0xFFFFFFFF00000001) { State.reset with e2 := { raw := [300], wmax := 9 } } (·.e2) =
      some { raw := [300, 1], wmax := 9 } := by decide +kernel

/-- R238. -/
theorem test_fin2 :
    after (.fin2 0) { State.reset with e2 := { raw := [300, 300, 300, 300, 300, 1], wmax := 9 } }
      (fun t => (t.e2.hyb.st, t.e2.hyb.fin, t.e2.raw.length)) =
      some ([0x0A, 0x2C, 0x01, 0x02, 0x01, 0x00], true, 6) := by decide +kernel

/-- R239. -/
theorem test_rst2 :
    after (.rst2 0)
      { State.reset with e2 := { hyb := { wid := 9, st := [1], fin := true }, raw := [300], wmax := 9 } }
      (·.e2) =
      some {} := by decide +kernel

/-- R240. -/
theorem test_size2 :
    after (.size2 0) { State.reset with e2 := { hyb := { st := [0x0A, 0x2C, 0x01, 0x02, 0x01, 0x00] } } } (·.r) =
      some 6 := by decide +kernel

/-- R241. -/
theorem test_est2 :
    after (.est2 0) { State.reset with e2 := { raw := [300, 300, 300, 300, 300, 1], wmax := 9 } } (·.r) =
      some 10 := by decide +kernel

/-- R242. -/
theorem test_wto2 :
    after (.wto2 0) { State.reset with e2 := { raw := [1, 2, 3, 4, 5, 6, 7, 0], wmax := 3 } } (·.ob) =
      some [0x03, 0xD1, 0x58, 0x1F] := by decide +kernel

/-- R243. -/
theorem test_enc3 :
    after (.enc3 0xFFFFFFFF00000001) { State.reset with e3 := { raw := [300], wmax := 9 } } (·.e3) =
      some { raw := [300, 1], wmax := 9 } := by decide +kernel

/-- R244. -/
theorem test_fin3 :
    after (.fin3 0) { State.reset with e3 := { raw := [300, 300, 300, 300, 300, 1], wmax := 9 } }
      (fun t => (t.e3.hyb.st, t.e3.hyb.fin, t.e3.raw.length)) =
      some ([0x09, 0x0A, 0x2C, 0x01, 0x02, 0x01, 0x00], true, 6) := by decide +kernel

/-- R245. -/
theorem test_rst3 :
    after (.rst3 0)
      { State.reset with e3 := { hyb := { wid := 9, st := [1], fin := true }, raw := [300], wmax := 9 } }
      (·.e3) =
      some {} := by decide +kernel

/-- R246. -/
theorem test_size3 :
    after (.size3 0) { State.reset with e3 := { hyb := { st := [0x09, 0x0A, 0x2C, 0x01, 0x02, 0x01, 0x00] } } }
      (·.r) =
      some 7 := by decide +kernel

/-- R247. -/
theorem test_est3 :
    after (.est3 0) { State.reset with e3 := { raw := [300, 300, 300, 300, 300, 1], wmax := 9 } } (·.r) =
      some 11 := by decide +kernel

/-- R248. -/
theorem test_wto3 :
    after (.wto3 0) { State.reset with e3 := { raw := [1, 2, 3, 4, 5, 6, 7, 0], wmax := 3 } } (·.ob) =
      some [0x03, 0x03, 0xD1, 0x58, 0x1F] := by decide +kernel

/-- R262. -/
theorem test_dinit1 :
    after (.dinit1 3 0)
      { State.reset with rc := ⟨0, 6⟩, rcend := 6, d1 := { mode := .rle, rem := 4, val := 2, opos := 1 } }
      (·.d1) =
      some { act := true, csr := ⟨0, 6⟩, wid := 3 } := by decide +kernel

/-- R263, the first decode. -/
theorem test_dec1 :
    after (.dec1 0)
      { attached [0x03, 0x24, 0x49, 0x92, 0x04, 0x01] with d1 := { act := true, csr := start 6, wid := 3 } }
      (fun t => (t.r, t.d1.csr.pos, t.d1.opos)) =
      some (4, 4, 1) := by decide +kernel

/-- R263, the ninth decode. -/
theorem test_dec1_next_run :
    after (.dec1 0)
      { attached [0x03, 0x24, 0x49, 0x92, 0x04, 0x01] with d1 := { act := true, csr := ⟨4, 6⟩, wid := 3, mode := .packed, oct := [4, 4, 4, 4, 4, 4, 4, 4], opos := 8 } }
      (fun t => (t.r, t.d1.csr.pos, t.d1.rem)) =
      some (1, 6, 1) := by decide +kernel

/-- R264. -/
theorem test_dinit3 :
    after (.dinit3 0) (attached [0x03, 0x03, 0xD1, 0x58, 0x1F]) (fun t => (t.d3, t.rc.pos)) =
      some ({ act := true, csr := ⟨1, 5⟩, wid := 3 }, 0) := by decide +kernel

/-- R264, R355. -/
theorem test_dinit3_bad_width :
    after (.dinit3 0) (attached [0x21]) (fun t => (t.d3.act, t.d3.csr.pos, codeOf t)) =
      some (false, 0, 0x04) := by decide +kernel

/-- R265. -/
theorem test_dec3 :
    after (.dec3 0)
      { attached [0x03, 0x03, 0xD1, 0x58, 0x1F] with d3 := { act := true, csr := ⟨1, 5⟩, wid := 3 } }
      (fun t => (t.r, t.d3.csr.pos)) =
      some (1, 5) := by decide +kernel

/-- R290: ARG[63:32] is ignored. -/
theorem test_enc4 :
    after (.enc4 0x12300000007) { State.reset with e4 := { vb := [10] } } (·.e4) =
      some { vb := [10, 7] } := by decide +kernel

/-- R290. -/
theorem test_enc4_full :
    after (.enc4 229)
      { State.reset with e4 := { vb := (List.range 129).map fun k => BitVec.ofNat 32 (100 + k) } }
      (·.e4) =
      some { st := [0x80, 0x01, 0x01, 0x81, 0x01, 0xC8, 0x01, 0x02, 0x00], vb := [229] } := by decide +kernel

/-- R284. -/
theorem test_fin4 :
    after (.fin4 0) { State.reset with e4 := { vb := [10, 7, 15, 15, 20] } } (·.e4) =
      some { st := [0x08, 0x01, 0x05, 0x14, 0x05, 0x04, 0xB0, 0x83], fin := true } := by decide +kernel

/-- R285. -/
theorem test_fin4_single :
    after (.fin4 0) { State.reset with e4 := { vb := [-3] } } (·.e4.st) =
      some [0x00, 0x00, 0x01, 0x05] := by decide +kernel

/-- R292. -/
theorem test_rst4 :
    after (.rst4 0) { State.reset with e4 := { st := [1], fin := true, vb := [5] } } (·.e4) =
      some {} := by decide +kernel

/-- R293. -/
theorem test_size4 :
    after (.size4 0)
      { State.reset with e4 := { st := [0x08, 0x01, 0x05, 0x14, 0x05, 0x04, 0xB0, 0x83], fin := true } }
      (·.r) =
      some 8 := by decide +kernel

/-- R294. -/
theorem test_est4 :
    after (.est4 0) { State.reset with e4 := { vb := [10, 7, 15, 15, 20] } } (·.r) = some 57 := by decide +kernel

/-- R295. -/
theorem test_wto4 :
    after (.wto4 0) { State.reset with e4 := { vb := [10, 7, 15, 15, 20] } } (·.ob) =
      some [0x08, 0x01, 0x05, 0x14, 0x05, 0x04, 0xB0, 0x83] := by decide +kernel

/-- R296. -/
theorem test_enc5_early_flush :
    after (.enc5 8001) { State.reset with e5 := { vb := [0, 1000, 2000, 3000, 4000, 5000, 6000, 7000, 8000] } }
      (·.e5) =
      some { st := [0x08, 0x01, 0x09, 0x00, 0xD0, 0x0F, 0x00], vb := [8001] } := by decide +kernel

/-- R297: no further early flush. -/
theorem test_enc5_keeps :
    after (.enc5 8003) { State.reset with e5 := { vb := [8001, 8002] } } (·.e5) =
      some { vb := [8001, 8002, 8003] } := by decide +kernel

/-- R297. -/
theorem test_fin5 :
    after (.fin5 0)
      { State.reset with e5 := { st := [0x08, 0x01, 0x09, 0x00, 0xD0, 0x0F, 0x00], vb := [8001, 8002, 8003, 8004, 8005, 8006, 8007, 8008] } }
      (·.e5) =
      some { st := [0x08, 0x01, 0x09, 0x00, 0xD0, 0x0F, 0x00, 0x08, 0x01, 0x08, 0x82, 0x7D, 0x02, 0x00], fin := true } :=
  by decide +kernel

/-- R298. -/
theorem test_rst5 :
    after (.rst5 0) { State.reset with e5 := { st := [1], fin := true, vb := [5] } } (·.e5) =
      some {} := by decide +kernel

/-- R299. -/
theorem test_size5 :
    after (.size5 0) { State.reset with e5 := { st := [0x08, 0x01, 0x09, 0x00, 0xD0, 0x0F, 0x00] } } (·.r) =
      some 7 := by decide +kernel

/-- R300. -/
theorem test_est5 :
    after (.est5 0) { State.reset with e5 := { vb := [0, 1, 2, 3, 4, 5, 6, 7, 8] } } (·.r) =
      some 113 := by decide +kernel

/-- R301. -/
theorem test_wto5 :
    after (.wto5 0) { State.reset with e5 := { vb := [0, 9223372036854775807] } } (·.ob) =
      some [0x08, 0x01, 0x02, 0x00, 0xFE, 0xFF, 0xFF, 0xFF, 0xFF, 0xFF, 0xFF, 0xFF, 0xFF, 0x01, 0x00] :=
  by decide +kernel

/-- R324. -/
theorem test_dinit4 :
    after (.dinit4 0)
      { State.reset with rc := ⟨0, 8⟩, rcend := 8, d4 := { remv := 3, first := true, cur := 4, msz := 8, mbidx := 1 } }
      (·.d4) =
      some { act := true, csr := ⟨0, 8⟩ } := by decide +kernel

/-- R325, the first decode. -/
theorem test_dec4_header :
    after (.dec4 0)
      { attached [0x08, 0x01, 0x05, 0x14, 0x05, 0x04, 0xB0, 0x83] with d4 := { act := true, csr := start 8 } }
      (fun t => (t.r, t.d4.csr.pos, t.d4.remv, t.d4.mind, t.d4.widths)) =
      some (10, 6, 4, -3, [4]) := by decide +kernel

/-- R325, the second decode. -/
theorem test_dec4_mini :
    after (.dec4 0)
      { attached [0x08, 0x01, 0x05, 0x14, 0x05, 0x04, 0xB0, 0x83] with d4 := { act := true, csr := ⟨6, 8⟩, remv := 4, cur := 10, mind := -3, msz := 8, widths := [4] } }
      (fun t => (t.r, t.d4.csr.pos, t.d4.mb)) =
      some (7, 8, [0, 11, 3, 8]) := by decide +kernel

/-- R326. -/
theorem test_dinit5 :
    after (.dinit5 0) { State.reset with rc := ⟨2, 8⟩, rcend := 8 } (·.d5) =
      some { act := true, csr := ⟨2, 8⟩ } := by decide +kernel

/-- R327. -/
theorem test_dec5_wraps :
    after (.dec5 0)
      { State.reset with d5 := { act := true, remv := 2, cur := 0x8000000000000000, mind := 1, msz := 8, widths := [64], mb := [0xFFFFFFFFFFFFFFFE, 0], mbidx := 1 } }
      (fun t => (t.r, t.d5.mbpos, t.d5.remv)) =
      some (0x7FFFFFFFFFFFFFFF, 1, 1) := by decide +kernel

/-- R356: mini-block count 0 with two values. -/
theorem test_dec5_bad_header :
    after (.dec5 0) { attached [0x08, 0x00, 0x02, 0x00] with d5 := { act := true, csr := start 4 } }
      (fun t => (codeOf t, t.d5.csr.pos)) =
      some (0x05, 0) := by decide +kernel

/-- R347. -/
theorem test_refused_after_fault :
    nextOf (exec (.rst4 0) { State.reset with fault := true, fcode := 0x02, e4 := { vb := [5] } }) =
      some { State.reset with fault := true, fcode := 0x02, e4 := { vb := [5] } } := by decide +kernel

/-- R361. -/
theorem test_illegal_word_faults :
    (nextOf (presentCommand ⟨0xA2000000, 9⟩ State.reset)).map (fun t => (t.fault, t.fcode, t.fcmd, t.farg)) =
      some (true, 0x30, 0xA2000000, 9) := by decide +kernel

/-- R345. -/
theorem test_step_runs_presented_word :
    (nextOf (step (State.reset.withFetchWord 32 0x06007F00))).map (fun t => (t.port, t.v[127])) = some ([], 0) :=
  by decide +kernel

/-- R348, R380. -/
theorem test_step_resets_hardware :
    (nextOf (step { written [1] with fault := true, fcode := 0x20, port := [.reset] })).map (fun t => (t.fault, t.fcode, t.ob)) =
      some (false, 0, []) := by decide +kernel

/-- R109. -/
theorem test_pseudo_instructions :
    vload [5, 6] = [.vset 0 5, .vset 1 6] ∧ encseq 4 [7, 8] = [.enc4 7, .enc4 8] := by decide +kernel

/-- R108. -/
theorem test_asm_text :
    asmText (.wpack32 3 8 0) = "WPACK32 w=3, n=8" ∧ asmText (.vset 3 7) = "VSET 3, 7" ∧ asmText (.fin1 0) = "FIN.1" :=
  by decide +kernel

/-! ### Witnesses: a state and operands that meet the hypotheses of each obligation, at the edges of its clauses -/

/-- The smallest capacities rule R6 admits. -/
def tight : Config.Params := { obcap := 1, ibcap := 1, stcap := 1, prcap := 32, rawcap := 1 }

/-- The largest. -/
def roomy : Config.Params :=
  { obcap := 2 ^ 31 - 1, ibcap := 2 ^ 31 - 1, stcap := 2 ^ 31 - 1, prcap := 2 ^ 31 - 1, rawcap := 2 ^ 31 - 1 }

/-- The state after reset with other capacities. -/
def sized (p : Config.Params) : State := State.resetWith p

/-- Work pending in three encoder units, a decoder in the middle of its view, and a command on the port. -/
def busy : State :=
  { attached [0x2C, 0x01] with
    port := [.command ⟨0x40000000, 1⟩], e0 := { bacc := 0x80, bcnt := 1 }, e1 := { wid := 3, oct := [1, 2] },
    e2 := { raw := [300], wmax := 9 }, d0 := { act := true, csr := ⟨1, 2⟩, byte := 0x2C, brem := 3 } }

/-- Units with something to write, and staging buffers too small for it. -/
def cramped : State :=
  { sized tight with
    e0 := { st := [1], bacc := 0x80, bcnt := 1 }, e1 := { wid := 8, rv := 1, rn := 1 }, e2 := { raw := [300], wmax := 9 },
    e3 := { raw := [300], wmax := 9 }, e4 := { vb := [1] }, e5 := { vb := [1] } }

/-- Every encoder unit finished, with one byte staged. -/
def finished : State :=
  { sized tight with
    e0 := { st := [1], fin := true }, e1 := { st := [1], fin := true }, e2 := { hyb := { st := [1], fin := true } },
    e3 := { hyb := { st := [1], fin := true } }, e4 := { st := [1], fin := true }, e5 := { st := [1], fin := true } }

/-- Every decoder over the bytes `b`, at their first. -/
def decoding (b : Bytes) : State :=
  { attached b with
    d0 := { act := true, csr := start b.length }, d1 := { act := true, csr := start b.length, wid := 3 },
    d3 := { act := true, csr := start b.length, wid := 3 }, d4 := { act := true, csr := start b.length },
    d5 := { act := true, csr := start b.length } }

/-- A command leaves something else in the part `f` of the state. -/
def changes {α : Type} [DecidableEq α] (i : Instr) (s : State) (f : State → α) : Bool :=
  match nextOf (exec i s) with
  | some t => decide (f t ≠ f s)
  | none => false

/-- A command ends in a next state without a fault. -/
def completes (i : Instr) (s : State) : Bool :=
  match nextOf (exec i s) with
  | some t => !t.fault
  | none => false

/-- A command ends in the fault `code`. -/
def faultsWith (i : Instr) (s : State) (code : FaultCode) : Bool :=
  match nextOf (exec i s) with
  | some t => t.fault && decide (t.fcode = faultNumber code)
  | none => false

/-- What a read of IB gives, where it does not fault. -/
def okOf {α : Type} (x : Except FaultCode α) : Option α :=
  match x with
  | .ok a => some a
  | .error _ => none

/-- The fault a read of IB raises. -/
def errorOf {α : Type} (x : Except FaultCode α) : Option FaultCode :=
  match x with
  | .ok _ => none
  | .error code => some code

theorem hybrid_inv {p : Config.Params} {e : HybridEnc}
    (h : e.st.length ≤ p.stcap ∧ e.wid ≤ 32 ∧ e.oct.length ≤ 7 ∧ (e.oct ≠ [] → e.rn = 0) ∧
      e.pr.length = e.noct * e.wid ∧ e.pr.length ≤ p.prcap ∧ e.rn ≤ 2 ^ 31 - 1 ∧ e.noct ≤ 2 ^ 31 - 1 ∧
      (e.wid = 0 → e.oct = [] ∧ e.noct = 0) ∧ (e.fin = true → e.rn = 0 ∧ e.oct = [] ∧ e.noct = 0)) : e.Inv p :=
  ⟨h.1, h.2.1, h.2.2.1, h.2.2.2.1, h.2.2.2.2.1, h.2.2.2.2.2.1, h.2.2.2.2.2.2.1, h.2.2.2.2.2.2.2.1,
    h.2.2.2.2.2.2.2.2.1, h.2.2.2.2.2.2.2.2.2⟩

theorem self_inv {p : Config.Params} {u : SelfEnc} (h : u.hyb.Inv p)
    (h' : u.raw.length ≤ p.rawcap ∧ u.wmax = maxOf (u.raw.map fun x => bitWidth x.toNat) ∧
      (u.hyb.fin = false → u.hyb.st = [] ∧ u.hyb.rn = 0 ∧ u.hyb.oct = [] ∧ u.hyb.noct = 0)) : u.Inv p :=
  ⟨h, h'.1, h'.2.1, h'.2.2⟩

theorem hybrid_dec_inv {limit : Word} {d : HybridDec}
    (h : (d.act = true → d.csr.Within limit) ∧ d.wid ≤ 32 ∧ d.rem < 2 ^ 31 ∧ d.val.toNat < 2 ^ d.wid ∧ d.opos ≤ 8 ∧
      (d.opos < 8 → d.oct.length = 8 ∧ ∀ x ∈ d.oct, x.toNat < 2 ^ d.wid)) : d.Inv limit :=
  ⟨h.1, h.2.1, h.2.2.1, h.2.2.2.1, h.2.2.2.2.1, h.2.2.2.2.2⟩

theorem delta_dec_inv {w : Nat} {limit : Word} {d : DeltaDec w}
    (h : (d.act = true → d.csr.Within limit) ∧ d.remv ≤ 129 ∧ (d.first = true → 1 ≤ d.remv) ∧
      d.mbpos ≤ d.mb.length ∧ d.mb.length ≤ d.msz ∧ (d.msz ≤ 128 ∧ d.msz % 8 = 0) ∧
      (d.widths.length ≤ 16 ∧ ∀ y ∈ d.widths, y.toNat ≤ maxMiniWidth w) ∧ d.mbidx ≤ d.widths.length ∧
      d.remv - (if d.first then 1 else 0) ≤ (d.mb.length - d.mbpos) + (d.widths.length - d.mbidx) * d.msz) :
    d.Inv limit :=
  ⟨h.1, h.2.1, h.2.2.1, h.2.2.2.1, h.2.2.2.2.1, h.2.2.2.2.2.1, h.2.2.2.2.2.2.1, h.2.2.2.2.2.2.2.1,
    h.2.2.2.2.2.2.2.2⟩

theorem busy_inv : busy.Inv where
  params := by decide +kernel
  noFault := by decide +kernel
  faulted := fun h => absurd h (by decide +kernel)
  ob := by decide +kernel
  ibForm := by decide +kernel
  ibBound := by decide +kernel
  mainCursor := by decide +kernel
  attached := by decide +kernel
  e0 := ⟨by decide +kernel, by decide +kernel, by decide +kernel, by decide +kernel⟩
  e1 := hybrid_inv (by decide +kernel)
  e2 := self_inv (hybrid_inv (by decide +kernel)) (by decide +kernel)
  e3 := self_inv (hybrid_inv (by decide +kernel)) (by decide +kernel)
  e4 := ⟨by decide +kernel, by decide +kernel, by decide +kernel⟩
  e5 := ⟨by decide +kernel, by decide +kernel, by decide +kernel⟩
  d0 := ⟨by decide +kernel, by decide +kernel⟩
  d1 := hybrid_dec_inv (by decide +kernel)
  d3 := hybrid_dec_inv (by decide +kernel)
  d4 := delta_dec_inv (by decide +kernel)
  d5 := delta_dec_inv (by decide +kernel)

/-! #### Encodings, steps, reset and faults -/

theorem witness_DecodeOfEncode : (Instr.wpack64 64 128 5).wf = true ∧ (Instr.vset 127 0).wf = true := by decide

theorem witness_EncodeOfDecode : decode ⟨0x27408000, 7⟩ = .ok (.wpack64 64 128 7) := by decide

theorem witness_IllegalWordsRaise : State.reset.Running ∧ ¬LegalWord 0x06008000 ∧ LegalWord 0x06007F00 := by
  decide +kernel

theorem witness_StepRunsDecodedInstruction :
    State.reset.port = [] ∧ (State.reset.withFetchWord 32 0x06007F00).port = .command ⟨0x06007F00, 0⟩ :: [] ∧
      decode ⟨0x06007F00, 0⟩ = .ok (.vset 127 0) ∧ State.reset.Running ∧ ¬LegalWord 0x06008000 ∧
      (nextOf (step (State.reset.withFetchWord 32 0x06008000))).map (fun t => (t.port, t.fcode, t.fcmd)) =
        some ([], 0x30, 0x06008000) ∧
      ({ State.reset with fault := true, port := [.command ⟨0x06008000, 0⟩] } : State).fault = true ∧
      ∃ t, step (State.reset.withFetchWord 32 0x06007F00) = .next t :=
  ⟨by decide +kernel, by decide +kernel, by decide, by decide +kernel, by decide +kernel, by decide +kernel,
    by decide +kernel, _, rfl⟩

theorem witness_HostWriteChangesOnlyIB :
    ({ State.reset with port := [.writeIB 65535 [7]] } : State).ib.wf = true ∧ 65535 + [7].length ≤ State.reset.params.ibcap ∧
      ([7] : Bytes) ≠ [] ∧ State.reset.params.ibcap < 65536 + [7].length := by decide +kernel

theorem witness_HardwareResetGivesResetValues :
    ({ busy with fault := true, port := [.reset, .reset] } : State).port = .reset :: [.reset] := by decide +kernel

theorem witness_ResetMeetsInvariant : tight.Admissible ∧ roomy.Admissible := by decide +kernel

theorem witness_EveryStepKeepsInvariant : busy.Inv ∧ ∃ t, step busy = .next t := ⟨busy_inv, _, rfl⟩

theorem witness_FaultedBlockRefusesEveryCommand : ({ State.reset with fault := true } : State).fault = true := by
  decide +kernel

theorem witness_OnlyResetClearsFault :
    ∃ s t : State, step s = .next t ∧ s.fault = true ∧ t.fault = false :=
  ⟨{ State.reset with fault := true, port := [.reset] }, _, rfl, rfl, rfl⟩

theorem witness_FaultsArePrecise : State.reset.Running ∧ busy.Running := by decide +kernel

theorem witness_OnlyListedFaultsAreRaised :
    (Instr.dec5 0).wf = true ∧ (decoding [0x08]).Running ∧ faultsWith (.dec5 0) (decoding [0x08]) .readPastEnd = true := by
  decide +kernel

/-! #### Frames -/

theorem witness_CommandsNeverWriteIB : ∃ t, exec (.rcatt 2) busy = .next t := ⟨_, rfl⟩

theorem witness_ResultRegistersWrittenAndRead :
    changes (.bitw32 1) State.reset (·.r) = true ∧ changes (.rfix32 0) (attached [1, 2, 3, 4]) (·.r) = true ∧
      changes (.size0 0) finished (·.r) = true ∧ changes (.est5 0) cramped (·.r) = true ∧
      changes (.dec0 0) (decoding [0x80]) (·.r) = true ∧ changes (.vset 127 7) State.reset (·.v[127]) = true ∧
      changes (.rpack64 8 1 0) (attached [1]) (·.v[0]) = true ∧ opcNo (.vset 127 7) ≠ 0x26 ∧
      opcNo (.vset 127 7) ≠ 0x27 ∧ completes (.wpack32 0 0 0) State.reset = true ∧
      completes (.wpack64 8 2 0) (loaded [1, 2, 3]) = true ∧
      (loaded [1, 2, 4]).v[0] = (loaded [1, 2, 3]).v[0] ∧ (loaded [1, 2, 4]).v[1] = (loaded [1, 2, 3]).v[1] ∧
      (loaded [1, 2, 4]).v ≠ (loaded [1, 2, 3]).v := by
  decide +kernel

theorem witness_FlagsChangeOnlyAsListed :
    finFlag State.reset 0 = false ∧ (nextOf (exec (.fin0 0) State.reset)).map (finFlag · 0) = some true ∧
    finFlag State.reset 5 = false ∧ (nextOf (exec (.wto5 0) State.reset)).map (finFlag · 5) = some true ∧
    finFlag finished 5 = true ∧ (nextOf (exec (.rst5 0) finished)).map (finFlag · 5) = some false ∧
    actFlag State.reset 5 = false ∧ (nextOf (exec (.dinit5 0) State.reset)).map (actFlag · 5) = some true ∧
    actFlag (decoding []) 0 = true ∧ (nextOf (exec (.rcatt 0) (decoding []))).map (actFlag · 0) = some false := by
  decide +kernel

theorem witness_UnitsChangeOnlyByTheirOwnCommands :
    changes (.enc0 1) State.reset (·.e0) = true ∧ changes (.enc1 1) State.reset (·.e1) = true ∧
    changes (.fin2 0) State.reset (·.e2) = true ∧ changes (.rst3 0) finished (·.e3) = true ∧
    changes (.wto4 0) State.reset (·.e4) = true ∧ changes (.enc5 1) State.reset (·.e5) = true ∧
    changes (.dinit0 0) State.reset (·.d0) = true ∧ changes (.dec1 0) (decoding [2, 1]) (·.d1) = true ∧
    changes (.rcatt 0) (decoding []) (·.d3) = true ∧ changes (.dec4 0) (decoding [0, 0, 1, 0]) (·.d4) = true ∧
    changes (.dec5 0) (decoding [0, 0, 1, 0]) (·.d5) = true ∧ changes (.obclr 0) (written [1]) (·.ob) = true ∧
    changes (.rpbool 0) (attached [1]) (·.rc) = true ∧ changes (.rcatt 1) State.reset (·.rcend) = true := by
  decide +kernel

theorem witness_AppendKeepsEarlierBytes :
    opcNo (.wfix32 1) / 16 = 2 ∧ completes (.wfix32 1) (written [5]) = true ∧ opcNo (.wto5 0) / 16 = 9 ∧
      completes (.wto5 0) (written [5]) = true ∧ 0 < (written [5]).ob.length := by decide +kernel

/-! #### Codec functions, management, primitives -/

theorem witness_RegisterReadPort :
    ResetValues State.reset ∧ 127 < 128 ∧ 31 ∈ [9, 10, 11, 12, 13, 14, 15, 22, 23, 26, 30, 31] ∧ 160 ≤ 160 := by
  refine ⟨⟨?_, ?_, ?_, ?_, ?_, ?_, ?_, ?_, ?_, ?_, ?_, ?_, ?_⟩, ?_⟩ <;> decide +kernel

theorem witness_VarintBytes :
    2 ≤ (varint 128).length ∧ 1 < (varint 128).length ∧ 2 ^ 32 - 1 < 2 ^ 32 ∧ 2 ^ 64 - 1 < 2 ^ 64 := by decide +kernel

theorem witness_PackedBitLayout : 7 < 8 * (pack [5] 3).length ∧ 0 < 1 := by decide +kernel

theorem witness_ManagementCommandResults : State.reset.Running ∧ (127 : Byte).toNat ≤ 127 ∧ 127 < 128 := by decide +kernel

theorem witness_ObpokeResult :
    (written [1, 2]).Running ∧ (1 : DWord).toNat % 2 ^ 32 < (written [1, 2]).ob.length ∧
      (written [1, 2]).ob.length ≤ (2 : DWord).toNat % 2 ^ 32 := by decide +kernel

theorem witness_RcattResult :
    State.reset.Running ∧ (65536 : DWord).toNat % 2 ^ 32 ≤ State.reset.params.ibcap ∧
      State.reset.params.ibcap < (65537 : DWord).toNat % 2 ^ 32 := by decide +kernel

theorem witness_RcsliceResult :
    (attached [1, 2]).Running ∧
      (attached [1, 2]).rc.pos.toNat + (2 : DWord).toNat % 2 ^ 32 ≤ (attached [1, 2]).rc.lim.toNat ∧
      (attached [1, 2]).rc.lim.toNat < (attached [1, 2]).rc.pos.toNat + (3 : DWord).toNat % 2 ^ 32 := by decide +kernel

theorem witness_PureFunctionResults : State.reset.Running := by decide +kernel

/-- One byte of room in OB: what fits exactly, and what is one byte too long. -/
theorem witness_FixedWidthWriteResults :
    (sized { obcap := 4 }).Running ∧ (sized { obcap := 4 }).ob.length + 4 ≤ (sized { obcap := 4 }).params.obcap ∧
      (sized { obcap := 7 }).params.obcap < (sized { obcap := 7 }).ob.length + 8 := by decide +kernel

theorem witness_VarintWriteResults :
    (sized tight).Running ∧ (sized tight).ob.length + (varint 127).length ≤ (sized tight).params.obcap ∧
      (sized tight).params.obcap < (sized tight).ob.length + (varint 128).length := by decide +kernel

theorem witness_PackWriteResults :
    State.reset.Running ∧ (128 : Byte).toNat ≤ 128 ∧ (32 : Byte).toNat ≤ 32 ∧ (64 : Byte).toNat ≤ 64 := by decide +kernel

theorem witness_BooleanWriteResult :
    (sized tight).Running ∧ (sized tight).ob.length + 1 ≤ (sized tight).params.obcap ∧
      ({ sized tight with ob := [1] } : State).params.obcap < ({ sized tight with ob := [1] } : State).ob.length + 1 := by
  decide +kernel

theorem witness_FixedWidthReadResults :
    let s := attached [1, 2, 3, 4]
    let u := attached [1, 2, 3, 4, 5, 6, 7, 8]
    let e := attached [1, 2, 3]
    s.Running ∧ s.rc.pos.toNat + 4 ≤ s.rc.lim.toNat ∧ e.rc.lim.toNat < e.rc.pos.toNat + 4 ∧
      u.rc.pos.toNat + 8 ≤ u.rc.lim.toNat ∧ s.rc.lim.toNat < s.rc.pos.toNat + 8 := by decide +kernel

theorem varint_at {m : Memory} {a n : Nat}
    (h : 1 ≤ n ∧ (∀ k, k < n - 1 → 128 ≤ (m.read (a + k)).toNat) ∧ (m.read (a + (n - 1))).toNat < 128) :
    VarintAt m a n := ⟨h.1, fun k hk => h.2.1 k (by omega), h.2.2⟩

/-- The longest varint of each width, and the shortest. -/
theorem witness_VarintReadResults :
    let s := attached [0xFF, 0xFF, 0xFF, 0xFF, 0x0F]
    let u := attached [0xFF, 0xFF, 0xFF, 0xFF, 0xFF, 0xFF, 0xFF, 0xFF, 0xFF, 0x01]
    let z := attached [0x00]
    VarintAt s.ib s.rc.pos.toNat 5 ∧ VarintAt u.ib u.rc.pos.toNat 10 ∧ VarintAt z.ib z.rc.pos.toNat 1 ∧
      s.Running ∧ s.rc.pos.toNat + 5 ≤ s.rc.lim.toNat ∧ (s.ib.read (s.rc.pos.toNat + 4)).toNat < 16 ∧
      u.rc.pos.toNat + 10 ≤ u.rc.lim.toNat ∧ (u.ib.read (u.rc.pos.toNat + 9)).toNat < 2 ∧
      z.rc.pos.toNat + 1 ≤ z.rc.lim.toNat :=
  ⟨varint_at (by decide +kernel), varint_at (by decide +kernel), varint_at (by decide +kernel), by decide +kernel⟩

/-- A varint cut short by the limit, one that goes on past its last permitted byte, and one with a bit too many; and an
empty view. -/
theorem witness_VarintReadResults_faults :
    let s := attached [0x80, 0x80, 0x80, 0x80]
    let u := attached [0x80, 0x80, 0x80, 0x80, 0x80]
    let x := attached [0x80, 0x80, 0x80, 0x80, 0x10]
    opcNo (.rvar32 0) ∈ [0x32, 0x33, 0x34, 0x35] ∧
      (∀ k, k < 4 → 128 ≤ (s.ib.read (s.rc.pos.toNat + k)).toNat) ∧ s.rc.pos.toNat + 4 ≤ s.rc.lim.toNat ∧
      s.rc.lim.toNat < s.rc.pos.toNat + 4 + 1 ∧
      (∀ k, k < 5 → 128 ≤ (u.ib.read (u.rc.pos.toNat + k)).toNat) ∧ u.rc.pos.toNat + 5 ≤ u.rc.lim.toNat ∧
      (∀ k, k < 4 → 128 ≤ (x.ib.read (x.rc.pos.toNat + k)).toNat) ∧ x.rc.pos.toNat + 5 ≤ x.rc.lim.toNat ∧
      (x.ib.read (x.rc.pos.toNat + 4)).toNat < 128 ∧ 16 ≤ (x.ib.read (x.rc.pos.toNat + 4)).toNat ∧
      (attached []).Running ∧ (attached []).rc.lim.toNat < (attached []).rc.pos.toNat + 0 + 1 := by decide +kernel

theorem witness_PackReadResults :
    let s := attached [0x41, 0x0C]
    s.Running ∧ (3 : Byte).toNat ≤ 128 ∧ (5 : Byte).toNat ≤ 32 ∧ (64 : Byte).toNat ≤ 64 ∧
      s.rc.pos.toNat + (3 * 5 + 7) / 8 ≤ s.rc.lim.toNat ∧ s.rc.lim.toNat < s.rc.pos.toNat + (3 * 64 + 7) / 8 := by
  decide +kernel

theorem witness_BooleanReadResult :
    (attached [0xB1]).Running ∧ (attached [0xB1]).rc.pos.toNat + 1 ≤ (attached [0xB1]).rc.lim.toNat ∧
      (attached []).rc.lim.toNat < (attached []).rc.pos.toNat + 1 := by decide +kernel

/-! #### The lifecycle and unit 0 -/

theorem witness_EncodeAfterFinishFaults :
    finished.Running ∧ finished.e0.fin = true ∧ finished.e1.fin = true ∧ finished.e2.hyb.fin = true ∧
      finished.e3.hyb.fin = true ∧ finished.e4.fin = true ∧ finished.e5.fin = true ∧
      (nextOf (exec (.enc5 1) finished)).map (fun t => (t.fault, t.fcode)) = some (true, 0x10) := by decide +kernel

theorem witness_DecodeBeforeInitFaults :
    State.reset.Running ∧ State.reset.d0.act = false ∧ State.reset.d1.act = false ∧ State.reset.d3.act = false ∧
      State.reset.d4.act = false ∧ State.reset.d5.act = false := by decide +kernel

/-- Each unit finished; each unit finishing into room for its stream and into none; each unit's finish faulting. -/
theorem witness_FinishIsIdempotentAndWtoAppends :
    finished.Running ∧ finished.e0.fin = true ∧ finished.e5.fin = true ∧
    completes (.fin0 0) State.reset = true ∧ completes (.fin1 0) State.reset = true ∧
    completes (.fin2 0) State.reset = true ∧ completes (.fin3 0) State.reset = true ∧
    completes (.fin4 0) State.reset = true ∧ completes (.fin5 0) State.reset = true ∧
    completes (.fin3 0) { sized tight with ob := [1] } = true ∧
    faultsWith (.wto3 0) { sized tight with ob := [1] } .capacity = true ∧
    faultsWith (.fin0 0) cramped .capacity = true ∧ faultsWith (.fin1 0) cramped .capacity = true ∧
    faultsWith (.fin2 0) cramped .capacity = true ∧ faultsWith (.fin3 0) cramped .capacity = true ∧
    faultsWith (.fin4 0) cramped .capacity = true ∧ faultsWith (.fin5 0) cramped .capacity = true := by
  decide +kernel

theorem witness_ResetAndSizeResults :
    finished.Running ∧ (32 : Byte).toNat ≤ 32 ∧ busy.e2.Inv busy.params ∧ busy.e2.hyb.fin = false ∧
      busy.e3.Inv busy.params ∧ busy.e3.hyb.fin = false :=
  ⟨by decide +kernel, by decide +kernel, busy_inv.e2, by decide +kernel, busy_inv.e3, by decide +kernel⟩

theorem witness_EstimateResults :
    cramped.Running ∧ finished.Running ∧ finished.e0.Inv finished.params ∧ finished.e0.fin = true ∧
      finished.e1.Inv finished.params ∧ finished.e1.fin = true ∧ finished.e4.Inv finished.params ∧
      finished.e4.fin = true ∧ finished.e5.Inv finished.params ∧ finished.e5.fin = true :=
  ⟨by decide +kernel, by decide +kernel,
    ⟨by decide +kernel, by decide +kernel, by decide +kernel, by decide +kernel⟩, by decide +kernel,
    hybrid_inv (by decide +kernel), by decide +kernel,
    ⟨by decide +kernel, by decide +kernel, by decide +kernel⟩, by decide +kernel,
    ⟨by decide +kernel, by decide +kernel, by decide +kernel⟩, by decide +kernel⟩

theorem witness_BooleanEncodeResult :
    let s : State := { sized tight with e0 := { bacc := 0x80, bcnt := 6 } }
    let u : State := { sized tight with e0 := { bacc := 0x80, bcnt := 7 } }
    let f : State := { sized tight with e0 := { st := [1], bacc := 0x80, bcnt := 7 } }
    s.Running ∧ finished.e0.fin = true ∧ s.e0.fin = false ∧ s.e0.bcnt < 7 ∧ u.e0.bcnt = 7 ∧ u.e0.st.length < u.params.stcap ∧
      f.params.stcap ≤ f.e0.st.length := by decide +kernel

theorem witness_BooleanFinishResult :
    let s : State := { sized tight with e0 := { bacc := 0xA0, bcnt := 3 } }
    s.Running ∧ s.e0.Inv s.params ∧ s.e0.fin = false ∧
      (s.e0.st ++ if s.e0.bcnt = 0 then [] else [s.e0.bacc]).length ≤ s.params.stcap ∧
      s.ob.length + (s.e0.st ++ if s.e0.bcnt = 0 then [] else [s.e0.bacc]).length ≤ s.params.obcap ∧
      cramped.e0.Inv cramped.params ∧ cramped.e0.fin = false ∧
      cramped.params.stcap < (cramped.e0.st ++ if cramped.e0.bcnt = 0 then [] else [cramped.e0.bacc]).length ∧
      finished.e0.Inv finished.params ∧ finished.e0.fin = true :=
  ⟨by decide +kernel, ⟨by decide +kernel, by decide +kernel, by decide +kernel, by decide +kernel⟩,
    by decide +kernel, by decide +kernel, by decide +kernel,
    ⟨by decide +kernel, by decide +kernel, by decide +kernel, by decide +kernel⟩, by decide +kernel,
    by decide +kernel, ⟨by decide +kernel, by decide +kernel, by decide +kernel, by decide +kernel⟩,
    by decide +kernel⟩

theorem witness_DecoderConstruction : busy.Running ∧ (32 : Byte).toNat ≤ 32 := by decide +kernel

theorem witness_BooleanDecodeResult :
    State.reset.Running ∧ State.reset.d0.act = false ∧ busy.Running ∧ busy.d0.act = true ∧ 0 < busy.d0.brem ∧ (decoding [0xB1]).d0.act = true ∧
      (decoding [0xB1]).d0.brem = 0 ∧ (decoding [0xB1]).d0.csr.pos.toNat + 1 ≤ (decoding [0xB1]).d0.csr.lim.toNat ∧
      (decoding []).d0.brem = 0 ∧ (decoding []).d0.csr.lim.toNat < (decoding []).d0.csr.pos.toNat + 1 := by decide +kernel

theorem witness_BooleanRoundTrip :
    (sized tight).Running ∧ [true, false, true, true, false, false, false, true].length ≤ 8 * (sized tight).params.stcap ∧
      (attached [0xB1]).Running ∧ (attached [0xB1]).ib.readBytes (attached [0xB1]).rc.pos.toNat 1 = [0xB1] ∧
      (attached [0xB1]).rc.pos.toNat + 1 ≤ (attached [0xB1]).rc.lim.toNat := by decide +kernel

/-! #### Units 1 to 3 -/

/-- A small block whose unit 1 is `e`. -/
def unit1 (stcap : Nat) (e : HybridEnc) : State :=
  { sized { stcap := stcap, prcap := 32 } with e1 := e }

/-- The first value mid-octuplet, an octuplet that just fits the run buffer, and one that does not. -/
theorem witness_HybridEncodeBranches_octuplet :
    let s := unit1 9 { wid := 8, oct := [1, 2, 3, 4, 5, 6] }
    let u := unit1 9 { wid := 8, oct := [1, 2, 3, 4, 5, 6, 7], pr := List.replicate 24 1, noct := 3 }
    let f := unit1 9 { wid := 8, oct := [1, 2, 3, 4, 5, 6, 7], pr := List.replicate 32 1, noct := 4 }
    finished.Running ∧ finished.e1.fin = true ∧
      s.Running ∧ s.e1.Inv s.params ∧ s.e1.fin = false ∧ s.e1.oct ≠ [] ∧ s.e1.oct.length < 7 ∧ u.e1.Inv u.params ∧
      u.e1.oct.length = 7 ∧ u.e1.pr.length + u.e1.wid ≤ u.params.prcap ∧ f.e1.Inv f.params ∧ f.e1.oct.length = 7 ∧
      f.params.prcap < f.e1.pr.length + f.e1.wid :=
  ⟨by decide +kernel, by decide +kernel, by decide +kernel, hybrid_inv (by decide +kernel), by decide +kernel, by decide +kernel, by decide +kernel,
    hybrid_inv (by decide +kernel), by decide +kernel, by decide +kernel, hybrid_inv (by decide +kernel),
    by decide +kernel, by decide +kernel⟩

/-- No candidate, the longest run that can still grow, and the longest run. -/
theorem witness_HybridEncodeBranches_candidate :
    let s := unit1 9 { wid := 32 }
    let u := unit1 9 { wid := 32, rv := 7, rn := 2 ^ 31 - 2 }
    let f := unit1 9 { wid := 32, rv := 7, rn := 2 ^ 31 - 1 }
    s.e1.Inv s.params ∧ s.e1.oct = [] ∧ s.e1.rn = 0 ∧ u.e1.Inv u.params ∧ u.e1.oct = [] ∧ 0 < u.e1.rn ∧
      (7 : DWord).setWidth 32 = u.e1.rv ∧ u.e1.rn < 2 ^ 31 - 1 ∧ f.e1.Inv f.params ∧ f.e1.oct = [] ∧
      (7 : DWord).setWidth 32 = f.e1.rv ∧ f.e1.rn = 2 ^ 31 - 1 :=
  ⟨hybrid_inv (by decide +kernel), by decide +kernel, by decide +kernel, hybrid_inv (by decide +kernel),
    by decide +kernel, by decide +kernel, by decide +kernel, by decide +kernel, hybrid_inv (by decide +kernel),
    by decide +kernel, by decide +kernel, by decide +kernel⟩

/-- A run at the threshold into a staging buffer of its size and of one byte less; a run below it, into a run buffer
with room for its octuplet and without. -/
theorem witness_HybridEncodeBranches_mismatch :
    let s := unit1 2 { wid := 3, rv := 4, rn := 9 }
    let f := unit1 1 { wid := 3, rv := 4, rn := 9 }
    let a := unit1 9 { wid := 3, rv := 4, rn := 8, pr := List.replicate 27 1, noct := 9 }
    let b := unit1 9 { wid := 2, rv := 3, rn := 12, pr := List.replicate 30 1, noct := 15 }
    let c := unit1 9 { wid := 2, rv := 3, rn := 12, pr := List.replicate 32 1, noct := 16 }
    let v : Word := (1 : DWord).setWidth 32
    let st := (varint (2 * 9)) ++ pack [4] 3
    (s.e1.Inv s.params ∧ s.e1.oct = [] ∧ v ≠ s.e1.rv ∧ threshold s.e1.wid ≤ s.e1.rn ∧ st.length ≤ s.params.stcap) ∧
    (f.e1.Inv f.params ∧ f.params.stcap < st.length) ∧
    (a.e1.Inv a.params ∧ a.e1.oct = [] ∧ v ≠ a.e1.rv ∧ 0 < a.e1.rn ∧ a.e1.rn < threshold a.e1.wid ∧
      a.e1.pr.length + 1 * a.e1.wid ≤ a.params.prcap) ∧
    (b.e1.Inv b.params ∧ v ≠ b.e1.rv ∧ b.e1.rn < threshold b.e1.wid ∧ b.e1.pr.length + 1 * b.e1.wid ≤ b.params.prcap) ∧
    c.e1.Inv c.params ∧ v ≠ c.e1.rv ∧ c.e1.rn < threshold c.e1.wid ∧ c.params.prcap < c.e1.pr.length + 1 * c.e1.wid :=
  ⟨⟨hybrid_inv (by decide +kernel), by decide +kernel, by decide +kernel, by decide +kernel, by decide +kernel⟩,
    ⟨hybrid_inv (by decide +kernel), by decide +kernel⟩,
    ⟨hybrid_inv (by decide +kernel), by decide +kernel, by decide +kernel, by decide +kernel, by decide +kernel,
      by decide +kernel⟩,
    ⟨hybrid_inv (by decide +kernel), by decide +kernel, by decide +kernel, by decide +kernel⟩,
    hybrid_inv (by decide +kernel), by decide +kernel, by decide +kernel, by decide +kernel⟩

/-- A stream that just fits the staging buffer, one that does not, and an octuplet that does not fit the run
buffer. -/
theorem witness_HybridFinishResult :
    let s := unit1 6 { wid := 3, rv := 1, rn := 2, pr := [0x24, 0x49, 0x92], noct := 1 }
    let f := unit1 5 { wid := 3, rv := 1, rn := 2, pr := [0x24, 0x49, 0x92], noct := 1 }
    let o := unit1 99 { wid := 8, oct := [1], pr := List.replicate 32 1, noct := 4 }
    s.Running ∧ s.e1.Inv s.params ∧ s.e1.fin = false ∧ completes (.fin1 0) s = true ∧ f.e1.Inv f.params ∧
      faultsWith (.fin1 0) f .capacity = true ∧ o.e1.Inv o.params ∧ o.e1.oct ≠ [] ∧
      ¬o.e1.pr.length + o.e1.wid ≤ o.params.prcap ∧ finished.e1.Inv finished.params ∧ finished.e1.fin = true :=
  ⟨by decide +kernel, hybrid_inv (by decide +kernel), by decide +kernel, by decide +kernel,
    hybrid_inv (by decide +kernel), by decide +kernel, hybrid_inv (by decide +kernel), by decide +kernel,
    by decide +kernel, hybrid_inv (by decide +kernel), by decide +kernel⟩

theorem witness_SelfWidthEncodeResults :
    let u : State := { sized tight with e2 := { raw := [1], wmax := 1 }, e3 := { raw := [1], wmax := 1 } }
    finished.e2.hyb.fin = true ∧ finished.e3.hyb.fin = true ∧
    (sized tight).Running ∧ (sized tight).e2.hyb.fin = false ∧ (sized tight).e2.raw.length < (sized tight).params.rawcap ∧
      u.params.rawcap ≤ u.e2.raw.length ∧ (sized tight).e3.hyb.fin = false ∧
      (sized tight).e3.raw.length < (sized tight).params.rawcap ∧ u.e3.hyb.fin = false ∧
      u.params.rawcap ≤ u.e3.raw.length := by decide +kernel

/-- One value of the largest width, with exactly the room the statement asks for. -/
theorem witness_SelfWidthFinishIsReplayOnUnit1 :
    let s : State := { sized { obcap := 6, stcap := 42, prcap := 36 } with
      e2 := { raw := [0xFFFFFFFF], wmax := 32 }, e3 := { raw := [0xFFFFFFFF], wmax := 32 } }
    s.Running ∧ s.params.Admissible ∧ s.e2.Inv s.params ∧ s.e2.hyb.fin = false ∧
      9 * s.e2.raw.length + 33 ≤ s.params.stcap ∧ 4 * s.e2.raw.length + 32 ≤ s.params.prcap ∧
      completes (.wto2 0) s = true ∧ s.e3.Inv s.params ∧ s.e3.hyb.fin = false ∧ completes (.wto3 0) s = true :=
  ⟨by decide +kernel, by decide +kernel, self_inv (hybrid_inv (by decide +kernel)) (by decide +kernel),
    by decide +kernel, by decide +kernel, by decide +kernel, by decide +kernel,
    self_inv (hybrid_inv (by decide +kernel)) (by decide +kernel), by decide +kernel, by decide +kernel⟩

theorem witness_PrefixedDecoderConstruction :
    (attached [32]).Running ∧ (attached [32]).rc.pos.toNat + 1 ≤ (attached [32]).rc.lim.toNat ∧
      ((attached [32]).ib.read (attached [32]).rc.pos.toNat).toNat ≤ 32 ∧
      32 < ((attached [33]).ib.read (attached [33]).rc.pos.toNat).toNat ∧
      (attached []).rc.lim.toNat < (attached []).rc.pos.toNat + 1 := by decide +kernel

/-- Headers: an empty bit-packed run, an empty RLE run, a truncated one, and runs whose bytes are missing. -/
theorem witness_HybridDecodeResults_headers :
    let d := (decoding [1]).d1
    d.AtHeader ∧ okOf (readVarint 32 (decoding [1]).ib d.csr) = some (1, ⟨1, 1⟩) ∧
      okOf (readVarint 32 (decoding [0, 9]).ib (decoding [0, 9]).d1.csr) = some (0, ⟨1, 2⟩) ∧ 1 + bytesFor 3 ≤ 2 ∧
      errorOf (readVarint 32 (decoding [0x80]).ib d.csr) = some .readPastEnd ∧
      okOf (readVarint 32 (decoding [3, 9]).ib (decoding [3, 9]).d1.csr) = some (3, ⟨1, 2⟩) ∧ 2 < 1 + 3 ∧
      okOf (readVarint 32 (decoding [4]).ib d.csr) = some (4, ⟨1, 1⟩) ∧ 1 < 1 + bytesFor 3 := by decide +kernel

/-- A value behind two empty runs, found by `DEC.1` and `DEC.3`. -/
theorem witness_HybridDecodeResults_after_empty_runs :
    let s := decoding [1, 0, 0, 2, 5]
    s.Running ∧ s.d1.act = true ∧ s.d3.act = true ∧
      (okOf (rleNext s.ib s.d1)).map (fun x => (x.1, x.2.csr)) = some (5, ⟨5, 5⟩) ∧
      (okOf (rleNext s.ib s.d3)).map (fun x => (x.1, x.2.csr)) = some (5, ⟨5, 5⟩) := by decide +kernel

/-- One state for each way a decoder yields a value, and one that faults. -/
theorem witness_HybridDecodeResults_values :
    let s := decoding [3, 0x24, 0x49, 0x92]
    let m : HybridDec := { s.d1 with mode := .packed, rem := 1, csr := ⟨1, 4⟩ }
    State.reset.Running ∧ State.reset.d1.act = false ∧ State.reset.d3.act = false ∧
    s.Running ∧ s.d1.act = true ∧ s.d3.act = true ∧
      HybridYields s.ib { s.d1 with mode := .rle, rem := 1, val := 5 } 5 { s.d1 with mode := .rle, rem := 0, val := 5 } ∧
      HybridYields s.ib { s.d1 with mode := .packed, oct := [1, 2, 3, 4, 5, 6, 7, 0], opos := 7 } 0
        { s.d1 with mode := .packed, oct := [1, 2, 3, 4, 5, 6, 7, 0], opos := 8 } ∧
      HybridYields s.ib m 4 { m with csr := ⟨4, 4⟩, rem := 0, oct := [4, 4, 4, 4, 4, 4, 4, 4], opos := 1 } ∧
      (s.d3.AtHeader ∧ okOf (readVarint 32 s.ib s.d3.csr) = some (3, ⟨1, 4⟩) ∧ 1 + s.d3.wid ≤ 4) ∧
      (okOf (readVarint 32 (decoding [2, 5]).ib (decoding [2, 5]).d1.csr) = some (2, ⟨1, 2⟩) ∧ 1 + bytesFor 3 ≤ 2) ∧
      (m.Inv 4 ∧ (okOf (rleNext s.ib m)).isSome = true) ∧ (m.opos = 8 ∧ 3 < 1 + m.wid) ∧ errorOf (rleNext s.ib { m with csr := ⟨1, 3⟩ }) = some .readPastEnd := by
  refine ⟨by decide +kernel, by decide +kernel, by decide +kernel, by decide +kernel, by decide +kernel,
    by decide +kernel, .inl (by decide +kernel),
    .inr (.inl (by decide +kernel)), .inr (.inr (.inl (by decide +kernel))), by decide +kernel, by decide +kernel,
    ⟨hybrid_dec_inv (by decide +kernel), by decide +kernel⟩,
    by decide +kernel, by decide +kernel⟩

/-! #### Units 4 and 5 -/

/-- The values of rule R290's example, as many as the buffer holds. -/
def ascending (w : Nat) : List (BitVec w) := (List.range 129).map fun k => BitVec.ofNat w (100 + k)

/-- A full buffer whose block is 9 bytes long, before a staging buffer of 9 bytes and of 8. -/
theorem witness_DeltaEncodeResult :
    let s : State := { sized { stcap := 9 } with e4 := { vb := ascending 32 } }
    finished.Running ∧ finished.e4.fin = true ∧ State.reset.Running ∧ State.reset.e4.fin = false ∧
      State.reset.e4.vb.length ≠ 129 ∧ s.e4.vb.length = 129 ∧
      s.e4.st.length + (bestBlock 32 (s.e4.vb.map BitVec.toInt)).length = 9 ∧ s.params.stcap = 9 := by decide +kernel

/-- Nine values with steps of 1000 and one more: a gain; nine alike: none; a full buffer. -/
theorem witness_DeltaLookaheadEncodeResult :
    let s : State := { sized { stcap := 7 } with e5 := { vb := [0, 1000, 2000, 3000, 4000, 5000, 6000, 7000, 8000] } }
    let u : State := { sized { stcap := 9 } with e5 := { vb := ascending 64 } }
    let block := fun xs : List DWord => (bestBlock 64 (xs.map BitVec.toInt)).length
    finished.Running ∧ finished.e5.fin = true ∧ s.Running ∧ s.e5.fin = false ∧ s.e5.vb.length = 9 ∧
      block ((s.e5.vb ++ [8001]).take 9) + block ((s.e5.vb ++ [8001]).drop 9) < block (s.e5.vb ++ [8001]) ∧
      block ((s.e5.vb ++ [8001]).take 9) = 7 ∧
      ¬block ((s.e5.vb ++ [9000]).take 9) + block ((s.e5.vb ++ [9000]).drop 9) < block (s.e5.vb ++ [9000]) ∧
      u.e5.fin = false ∧ u.e5.vb.length = 129 ∧ block u.e5.vb = 9 := by decide +kernel

/-- One value makes a block of 4 bytes: into 4 bytes of staging and of OB, and into none. -/
theorem witness_DeltaFinishResults :
    let s : State := { sized { stcap := 4, obcap := 4 } with e4 := { vb := [7] }, e5 := { vb := [7] } }
    finished.Running ∧ finished.e4.fin = true ∧ finished.e5.fin = true ∧ State.reset.e4.vb = [] ∧
      State.reset.e5.vb = [] ∧ s.Running ∧ s.e4.fin = false ∧ s.e5.fin = false ∧ (bestBlock 32 (s.e4.vb.map BitVec.toInt)).length = 4 ∧
      (bestBlock 64 (s.e5.vb.map BitVec.toInt)).length = 4 ∧ cramped.e4.vb ≠ [] ∧ cramped.e5.vb ≠ [] ∧
      cramped.params.stcap < (bestBlock 32 (cramped.e4.vb.map BitVec.toInt)).length ∧
      cramped.params.stcap < (bestBlock 64 (cramped.e5.vb.map BitVec.toInt)).length := by decide +kernel

theorem witness_BlockSearchIsMinimal :
    128 ≤ 128 ∧ 128 ∈ [0, 8, 16, 32, 64, 128] ∧ 2 ≤ ([0, 5] : List Int).length ∧
      ((ascending 32).map BitVec.toInt).length ≤ 129 ∧ 8 ≤ blockSize (([0, 5] : List Int).length - 1) := by decide +kernel

/-- Two values in one mini-block of 8, and a full buffer in one of 128. -/
theorem witness_SerializedBlockLength :
    2 ≤ ([0, 5] : List Int).length ∧ ([0, 5] : List Int).length ≤ 129 ∧ 8 ∈ [8, 16, 32, 64, 128] ∧
      8 ≤ blockSize (([0, 5] : List Int).length - 1) ∧ 2 ≤ ((ascending 32).map BitVec.toInt).length ∧
      ((ascending 32).map BitVec.toInt).length ≤ 129 ∧ 128 ∈ [8, 16, 32, 64, 128] ∧
      128 ≤ blockSize (((ascending 32).map BitVec.toInt).length - 1) := by decide +kernel

/-- The estimate itself as the capacity; the buffer full. -/
theorem witness_EstimatesBoundFinish :
    let s : State := { sized { stcap := 677 } with e4 := { vb := ascending 32 } }
    let u : State := { sized { stcap := 1193 } with e5 := { vb := ascending 64 } }
    cramped.Running ∧ finished.e0.Inv finished.params ∧ completes (.fin0 0) finished = true ∧
    busy.e1.Inv busy.params ∧ completes (.fin1 0) busy = true ∧
    s.Running ∧ s.e4.fin = false ∧ s.e4.vb.length ≤ 129 ∧ deltaEst 5 s.e4 ≤ s.params.stcap ∧ u.e5.fin = false ∧
      u.e5.vb.length ≤ 129 ∧ deltaEst 9 u.e5 ≤ u.params.stcap :=
  ⟨by decide +kernel, ⟨by decide +kernel, by decide +kernel, by decide +kernel, by decide +kernel⟩, by decide +kernel,
    hybrid_inv (by decide +kernel), by decide +kernel⟩

/-- The header fields a decoder reads from the bytes `b`, and the offset behind them. -/
def headerOf (b : Bytes) : Option (List Nat) :=
  match readVarint 32 (attached b).ib (start b.length) with
  | .error _ => none
  | .ok (bs, c1) =>
    match readVarint 32 (attached b).ib c1 with
    | .error _ => none
    | .ok (mc, c2) =>
      match readVarint 32 (attached b).ib c2 with
      | .error _ => none
      | .ok (vc, c3) =>
        (okOf (readVarint 32 (attached b).ib c3)).map fun x => [bs.toNat, mc.toNat, vc.toNat, x.1.toNat, x.2.pos.toNat]

/-- A header with more deltas than its block size; a block of one value; one with no bytes for its width; one with the
largest width of unit 4; one with a width above that. -/
theorem witness_BlockHeaderIsChecked :
    headerOf [8, 1, 10, 20] = some [8, 1, 10, 20, 4] ∧ headerOf [0, 0, 1, 14] = some [0, 0, 1, 14, 4] ∧
      headerOf [8, 1, 5, 20, 5] = some [8, 1, 5, 20, 4] ∧ headerOf [8, 1, 5, 20, 5, 33] = some [8, 1, 5, 20, 4] ∧
      okOf (readVarint 64 (attached [8, 1, 5, 20, 5, 33]).ib ⟨4, 6⟩) = some (5, ⟨5, 6⟩) ∧
      (attached [8, 1, 5, 20, 5, 33]).ib.readBytes 5 1 = [33] ∧
      (attached [8, 1, 5, 20, 5, 34]).ib.readBytes 5 1 = [34] ∧
      errorOf (readVarint 64 (attached [8, 1, 5, 20]).ib ⟨4, 4⟩) = some .readPastEnd := by decide +kernel

/-- A header cut short before each of its fields. -/
theorem witness_BlockHeaderIsChecked_reads :
    let s := attached [8, 1, 5, 20]
    errorOf (readVarint 32 s.ib ⟨0, 0⟩) = some .readPastEnd ∧ okOf (readVarint 32 s.ib ⟨0, 1⟩) = some (8, ⟨1, 1⟩) ∧
      errorOf (readVarint 32 s.ib ⟨1, 1⟩) = some .readPastEnd ∧ okOf (readVarint 32 s.ib ⟨1, 2⟩) = some (1, ⟨2, 2⟩) ∧
      errorOf (readVarint 32 s.ib ⟨2, 2⟩) = some .readPastEnd ∧ okOf (readVarint 32 s.ib ⟨2, 3⟩) = some (5, ⟨3, 3⟩) ∧
      errorOf (readVarint 64 s.ib ⟨3, 3⟩) = some .readPastEnd := by decide +kernel

/-- The first value, a value of the loaded mini-block, a mini-block to load (whole, and cut short), a header to read
(whole, and cut short). -/
theorem witness_DeltaDecodeResults :
    let s := decoding [0x08, 0x01, 0x05, 0x14, 0x05, 0x04, 0xB0, 0x83]
    let a : DeltaDec 32 := { s.d4 with remv := 5, first := true, cur := 10, csr := ⟨6, 8⟩ }
    let b : DeltaDec 32 := { s.d4 with remv := 3, cur := 7, mind := -3, mb := [0, 11, 3, 8], mbpos := 3, msz := 8 }
    let c : DeltaDec 32 := { s.d4 with remv := 4, cur := 10, mind := -3, widths := [4], msz := 8, csr := ⟨6, 8⟩ }
    State.reset.Running ∧ State.reset.d4.act = false ∧ State.reset.d5.act = false ∧
    s.Running ∧ s.d4.act = true ∧ s.d5.act = true ∧ (0 < a.remv ∧ a.first = true) ∧
      (0 < b.remv ∧ b.first = false ∧ b.mbpos < b.mb.length) ∧
      (0 < c.remv ∧ c.first = false ∧ c.mbpos = c.mb.length ∧
        c.csr.pos.toNat + (min c.msz c.remv * (c.widths.getD c.mbidx 0).toNat + 7) / 8 = c.csr.lim.toNat) ∧
      ((7 : Word).toNat < 6 + 2) ∧ s.d4.remv = 0 ∧ (okOf (readBlockHeader s.ib s.d4)).isSome = true ∧
      errorOf (readBlockHeader (decoding [8]).ib (decoding [8]).d4) = some .readPastEnd := by decide +kernel

/-- A view that holds exactly the block of one value. -/
theorem witness_DeltaBlockRoundTrip :
    let s := attached [0x00, 0x00, 0x01, 0x0E]
    s.Running ∧ 1 ≤ ([7] : List Word).length ∧ (ascending 64).length ≤ 129 ∧
      bestBlock 32 (([7] : List Word).map BitVec.toInt) = [0x00, 0x00, 0x01, 0x0E] ∧
      bestBlock 64 (([7] : List DWord).map BitVec.toInt) = [0x00, 0x00, 0x01, 0x0E] ∧
      s.ib.readBytes s.rc.pos.toNat 4 = [0x00, 0x00, 0x01, 0x0E] ∧ s.rc.pos.toNat + 4 ≤ s.rc.lim.toNat := by
  decide +kernel

end Sys2Proof.Tests
end

section
/-! PROOFS. Zigzag and packing as numbers and as bits (rules R13, R14, R16, R17), and what an append leaves
of OB (rules R9, R160, R201). -/

namespace Sys2Proof.Machine

/-! ### Zigzag and its inverse (rules R13, R14) -/

/-- The arithmetic shift by all but one bit spreads the sign over the word. -/
theorem sshiftRight_pred {n : Nat} (hn : 0 < n) (v : BitVec n) :
    v.sshiftRight (n - 1) = if v.msb then BitVec.allOnes n else 0#n := by
  ext i hi
  rw [BitVec.getElem_sshiftRight]
  by_cases h0 : i = 0
  · subst h0
    cases hm : v.msb <;> simp [hn, ← BitVec.msb_eq_getLsbD_last, ← BitVec.getLsbD_eq_getElem, hm]
  · cases hm : v.msb <;> simp [show ¬n - 1 + i < n by omega]

/-- The closed form of the zigzag mapping, at any width (rule R13). -/
theorem zigzag_toNat {n : Nat} (hn : 0 < n) (v : BitVec n) :
    ((zigzag v).toNat : Int) = if 0 ≤ v.toInt then 2 * v.toInt else -2 * v.toInt - 1 := by
  obtain ⟨m, rfl⟩ : ∃ m, n = m + 1 := ⟨n - 1, by omega⟩
  have hpow : 2 ^ (m + 1) = 2 * 2 ^ m := Nat.pow_succ'
  have hlt := v.isLt
  have hshl : (v <<< 1).toNat = 2 * v.toNat % 2 ^ (m + 1) := by
    rw [BitVec.toNat_shiftLeft, Nat.shiftLeft_eq, Nat.pow_one, Nat.mul_comm]
  unfold zigzag
  rw [sshiftRight_pred hn]
  cases hmsb : v.msb with
  | false =>
    have hsmall := BitVec.msb_eq_false_iff_two_mul_lt.1 hmsb
    rw [if_neg Bool.false_ne_true, BitVec.xor_zero, hshl, Nat.mod_eq_of_lt hsmall,
      BitVec.toInt_eq_toNat_of_msb hmsb, if_pos (by omega)]
    omega
  | true =>
    have hbig := BitVec.msb_eq_true_iff_two_mul_ge.1 hmsb
    have hint : v.toInt = (v.toNat : Int) - (2 ^ (m + 1) : Nat) := by rw [BitVec.toInt_eq_msb_cond, if_pos hmsb]
    rw [if_pos rfl, BitVec.xor_allOnes, BitVec.toNat_not, hshl, if_neg (by omega), hint,
      Nat.mod_eq_sub_mod hbig, Nat.mod_eq_of_lt (by omega)]
    omega

/-- What rule R14 subtracts: the lowest bit, spread over the word. -/
theorem zero_sub_and_one {n : Nat} (u : BitVec n) :
    0 - (u &&& 1) = if u.toNat % 2 = 0 then 0#n else BitVec.allOnes n := by
  have hbit : u.getLsbD 0 = decide (u.toNat % 2 = 1) := by rw [BitVec.getLsbD, Nat.testBit_zero]
  have hand : u &&& 1#n = if u.toNat % 2 = 0 then 0#n else 1#n := by
    rw [BitVec.and_one_eq_setWidth_ofBool_getLsbD, hbit]
    apply BitVec.eq_of_toNat_eq
    rcases Nat.mod_two_eq_zero_or_one u.toNat with h | h <;> simp [h]
  rw [show (1 : BitVec n) = 1#n from rfl, hand]
  split
  · simp
  · simp [BitVec.neg_one_eq_allOnes]

/-- The closed form of the inverse mapping, at any width (rule R14). -/
theorem unzigzag_toInt {n : Nat} (hn : 0 < n) (u : BitVec n) : (unzigzag u).toInt = unzigzagInt u.toNat := by
  obtain ⟨m, rfl⟩ : ∃ m, n = m + 1 := ⟨n - 1, by omega⟩
  have hpow : 2 ^ (m + 1) = 2 * 2 ^ m := Nat.pow_succ'
  have hlt := u.isLt
  have hshr : (u >>> 1).toNat = u.toNat / 2 := by rw [BitVec.toNat_ushiftRight, Nat.shiftRight_one]
  unfold unzigzag unzigzagInt
  rw [zero_sub_and_one]
  split
  · rw [BitVec.xor_zero, BitVec.toInt_eq_toNat_of_lt (by omega), hshr]
  · have hnot : (~~~(u >>> 1)).toNat = 2 ^ (m + 1) - 1 - u.toNat / 2 := by rw [BitVec.toNat_not, hshr]
    rw [BitVec.xor_allOnes, BitVec.toInt_eq_toNat_cond, if_neg (by omega), hnot]
    omega

theorem unzigzag_zigzag {n : Nat} (hn : 0 < n) (v : BitVec n) : unzigzag (zigzag v) = v := by
  have hz := zigzag_toNat hn v
  apply BitVec.eq_of_toInt_eq
  rw [unzigzag_toInt hn, unzigzagInt]
  split at hz <;> split <;> omega

theorem zigzag_unzigzag {n : Nat} (hn : 0 < n) (u : BitVec n) : zigzag (unzigzag u) = u := by
  have hz := zigzag_toNat hn (unzigzag u)
  rw [unzigzag_toInt hn, unzigzagInt] at hz
  apply BitVec.eq_of_toNat_eq
  split at hz <;> split at hz <;> omega

/-! ### Packing and unpacking (rules R16, R17) -/

/-- A value of the stream, cut to its low `w` bits, by its position. -/
theorem unpackSum_getD {w : Nat} : ∀ {n i : Nat} (x : Nat), i < n →
    (unpackSum w n x).getD i 0 = x / 2 ^ (i * w) % 2 ^ w
  | _ + 1, 0, x, _ => by simp [unpackSum]
  | n + 1, i + 1, x, h => by
    rw [unpackSum, List.getD_cons_succ, unpackSum_getD _ (by omega), Nat.div_div_eq_div_mul, ← Nat.pow_add,
      Nat.succ_mul, Nat.add_comm w]

/-- Unpacking a packed stream gives the low `w` bits of every value (rule R17). -/
theorem unpackSum_packSum (w : Nat) : ∀ vals : List Nat,
    unpackSum w vals.length (packSum w vals) = vals.map (· % 2 ^ w)
  | [] => rfl
  | v :: vs => by
    rw [List.length_cons, unpackSum, packSum, List.map_cons, Nat.add_mul_mod_self_left, Nat.mod_mod,
      Nat.add_mul_div_left _ _ (Nat.two_pow_pos w), Nat.div_eq_of_lt (Nat.mod_lt _ (Nat.two_pow_pos w)),
      Nat.zero_add, unpackSum_packSum w vs]

theorem unpack_pack (vals : List Nat) (w : Nat) : unpack (pack vals w) w vals.length = vals.map (· % 2 ^ w) := by
  rw [unpack, leVal_pack, unpackSum_packSum]

/-- Bit `k` of the stream is bit `k % w` of value `k / w`, and 0 behind the last value (rule R16). -/
theorem testBit_packSum (w : Nat) : ∀ (vals : List Nat) (k : Nat),
    (packSum w vals).testBit k = (decide (k < vals.length * w) && (vals.getD (k / w) 0).testBit (k % w))
  | [], k => by simp [packSum]
  | v :: vs, k => by
    have hv : v % 2 ^ w < 2 ^ w := Nat.mod_lt _ (Nat.two_pow_pos w)
    rw [packSum, Nat.add_comm, Nat.testBit_two_pow_mul_add _ hv, List.length_cons, Nat.succ_mul]
    by_cases hk : k < w
    · have hin : k < vs.length * w + w := by omega
      simp [hk, hin, Nat.div_eq_of_lt hk, Nat.mod_eq_of_lt hk, Nat.testBit_mod_two_pow]
    · rw [if_neg hk, testBit_packSum w vs]
      rcases Nat.eq_zero_or_pos w with rfl | hw
      · simp
      · have hlt : k - w < vs.length * w ↔ k < vs.length * w + w := by omega
        rw [Nat.div_eq_sub_div (a := k) hw (by omega), List.getD_cons_succ, Nat.mod_eq_sub_mod (a := k) (by omega)]
        simp only [hlt]

/-- Bit `k` of a little-endian byte string, counted from bit 0 of byte 0 (rule R8). -/
theorem bytesLE_getLsbD {n x k : Nat} (h : k < 8 * n) :
    ((bytesLE x n).getD (k / 8) 0).getLsbD (k % 8) = x.testBit k := by
  rw [bytesLE_getD n x _ (by omega), BitVec.getLsbD_ofNat, show 256 = 2 ^ 8 from rfl, ← Nat.pow_mul,
    Nat.testBit_div_two_pow, Nat.mod_add_div, decide_eq_true (Nat.mod_lt k (by decide)), Bool.true_and]

@[simp] theorem pack_length (vals : List Nat) (w : Nat) : (pack vals w).length = (vals.length * w + 7) / 8 := by
  rw [pack, bytesLE_length, bytesFor]

/-! ### What an append leaves of OB (rules R9, R160, R201) -/

/-- A write primitive or `WTO.u` that completes appends to OB: the bytes written before are its beginning. -/
theorem effect_appends {i : Instr} {s t : State} (hop : opcNo i / 16 = 2 ∨ opcNo i / 16 = 9) (h : Effect i s t) :
    ∃ b, t.ob = s.ob ++ b := by
  cases i with
  | wfix32 _ | wfix64 _ | wvar32 _ | wvar64 _ | wzz32 _ | wzz64 _ | wpack32 _ _ _ | wpack64 _ _ _ | wpbool _ =>
    obtain ⟨b, -, rfl⟩ := h
    exact ⟨b, rfl⟩
  | wto0 _ | wto1 _ | wto2 _ | wto3 _ | wto4 _ | wto5 _ =>
    obtain ⟨e, -, -, rfl⟩ := h
    exact ⟨_, rfl⟩
  | _ => simp [opcNo, opcOf] at hop

/-- The same for every end of such a command: a refused or faulting one leaves OB as it is (rules R346, R347). -/
theorem exec_appends {i : Instr} {s t : State} (hop : opcNo i / 16 = 2 ∨ opcNo i / 16 = 9)
    (h : exec i s = .next t) : ∃ b, t.ob = s.ob ++ b := by
  rcases exec_ends h with ⟨-, rfl⟩ | ⟨-, code, rfl⟩ | ⟨-, -, heff⟩
  · exact ⟨[], (List.append_nil _).symm⟩
  · exact ⟨[], (List.append_nil _).symm⟩
  · exact effect_appends hop heff

/-! ### The statements -/

/-- Settles O18: every end of a write primitive or a `WTO.u` leaves the old OB as the beginning of the new one. -/
theorem appendKeepsEarlierBytes : Obligations.AppendKeepsEarlierBytes := by
  intro i s t hop h
  obtain ⟨b, hb⟩ := exec_appends hop h
  rw [hb, List.length_append]
  exact ⟨Nat.le_add_right _ _, fun k hk => by rw [readOB, readOB, hb, List.getElem?_append_left hk]⟩

/-- Settles O20: the closed forms hold at every width above 0, and each mapping's inverse follows from them. -/
theorem closedFormsAndInverses : Obligations.ClosedFormsAndInverses :=
  ⟨zigzag_toNat (by decide), zigzag_toNat (by decide), unzigzag_toInt (by decide), unzigzag_toInt (by decide),
    fun v => ⟨unzigzag_zigzag (by decide) v, zigzag_unzigzag (by decide) v⟩,
    fun v => ⟨unzigzag_zigzag (by decide) v, zigzag_unzigzag (by decide) v⟩, unpack_pack⟩

/-- Settles O22: the bits of the bytes are the bits of the stream, and those are the values' own. -/
theorem packedBitLayout : Obligations.PackedBitLayout := by
  intro vals w
  refine ⟨pack_length vals w, fun k hk => ?_, fun b n i hi => unpackSum_getD (leVal b) hi⟩
  rw [pack, bytesLE_length] at hk
  rw [pack, bytesLE_getLsbD hk, testBit_packSum]

end Sys2Proof.Machine
end

section
/-! PROOFS. The decoder and the encoder undo each other on legal words (rules R100 to R108), what a step makes of a
presented command (rules R345, R347, R374), and the bytes of a varint (rule R92). -/

namespace Sys2Proof

open Sys2Proof.Machine

/-! ### The checks of the two operand fields (rule R102) -/

theorem toNat_le_zero_iff {n : Nat} (x : BitVec n) : x.toNat ≤ 0 ↔ x = 0 := by
  rw [Nat.le_zero, BitVec.toNat_eq, BitVec.ofNat_eq_ofNat, BitVec.toNat_zero]

theorem decodeBare_eq_ok {width imm8 : Byte} {i j : Instr} :
    decodeBare width imm8 i = .ok j ↔ (width.toNat ≤ 0 ∧ imm8.toNat ≤ 0) ∧ i = j := by
  unfold decodeBare
  simp only [toNat_le_zero_iff]
  split_ifs with hw hm
  · simp only [hw, false_and]
  · simp only [hm, and_false, false_and]
  · simp [not_not.1 hw, not_not.1 hm]

theorem decodeImm8_eq_ok {max : Nat} {width imm8 : Byte} {i j : Instr} :
    decodeImm8 max width imm8 i = .ok j ↔ (width.toNat ≤ 0 ∧ imm8.toNat ≤ max) ∧ i = j := by
  unfold decodeImm8
  simp only [toNat_le_zero_iff]
  split_ifs with hw hm
  · simp only [hw, false_and]
  · simp [hm]
  · simp [not_not.1 hw, not_lt.1 hm]

theorem decodeWidth_eq_ok {max : Nat} {width imm8 : Byte} {i j : Instr} :
    decodeWidth max width imm8 i = .ok j ↔ (width.toNat ≤ max ∧ imm8.toNat ≤ 0) ∧ i = j := by
  unfold decodeWidth
  simp only [toNat_le_zero_iff]
  split_ifs with hw hm
  · simp [hw]
  · simp only [hm, and_false, false_and]
  · simp [not_lt.1 hw, not_not.1 hm]

theorem decodePack_eq_ok {max : Nat} {width imm8 : Byte} {i j : Instr} :
    decodePack max width imm8 i = .ok j ↔ (width.toNat ≤ max ∧ imm8.toNat ≤ Config.maxCount) ∧ i = j := by
  unfold decodePack
  split_ifs with hw hm
  · simp [hw]
  · simp [hm]
  · simp [not_lt.1 hw, not_lt.1 hm]

/-! ### The opcode map (rules R103, R104) -/

/-- The opcode is one of the table and both operand fields are within its ranges (rules R102, R104). -/
abbrev FieldsLegal (opc width imm8 : Nat) : Prop :=
  opc ∈ legalOpcodes ∧ width ≤ widthLimit opc ∧ imm8 ≤ imm8Limit opc

/-- Row by row, the decoder's checks are the limits the statements give for the opcode. -/
theorem decodeFields_isOk_iff (opc width imm8 : Byte) (arg : DWord) :
    (∃ i, decodeFields opc width imm8 arg = .ok i) ↔ FieldsLegal opc.toNat width.toNat imm8.toNat := by
  unfold decodeFields
  split
  case h_78 =>
    have hunknown : opc.toNat ∉ legalOpcodes := by
      simp only [imp_false] at *
      simp only [legalOpcodes, List.mem_append, List.mem_cons, List.not_mem_nil, or_self, not_false_eq_true, *]
    simp [hunknown]
  all_goals
    next hopc =>
    simp only [decodeBare_eq_ok, decodeImm8_eq_ok, decodeWidth_eq_ok, decodePack_eq_ok, exists_and_left, exists_eq',
      and_true]
    rw [hopc]
    exact (and_iff_right (by decide)).symm

/-- What the decoder answers is well formed and holds the very fields it was given. -/
theorem fields_of_decodeFields {opc width imm8 : Byte} {arg : DWord} {i : Instr}
    (h : decodeFields opc width imm8 arg = .ok i) :
    i.wf = true ∧ opcOf i = opc ∧ widthOf i = width ∧ imm8Of i = imm8 ∧ argOf i = arg := by
  unfold decodeFields at h
  split at h
  case h_78 => cases h
  all_goals
    next hopc =>
    simp only [decodeBare_eq_ok, decodeImm8_eq_ok, decodeWidth_eq_ok, decodePack_eq_ok, toNat_le_zero_iff] at h
    obtain ⟨⟨hwidth, himm8⟩, rfl⟩ := h
    exact ⟨by simp [Instr.wf, hwidth, himm8], BitVec.eq_of_toNat_eq hopc.symm, by simp [widthOf, hwidth],
      by simp [imm8Of, himm8], rfl⟩

/-- The decoder answers a well-formed command for its own fields. -/
theorem decodeFields_of_wf {i : Instr} (h : i.wf = true) :
    decodeFields (opcOf i) (widthOf i) (imm8Of i) (argOf i) = .ok i := by
  cases i with
  | obpoke byte _ => exact decodeImm8_eq_ok.2 ⟨⟨le_rfl, Nat.le_of_lt_succ byte.isLt⟩, rfl⟩
  | vset _ _ => exact decodeImm8_eq_ok.2 ⟨⟨le_rfl, of_decide_eq_true h⟩, rfl⟩
  | wpack32 _ _ _ | wpack64 _ _ _ | rpack32 _ _ _ | rpack64 _ _ _ =>
    exact decodePack_eq_ok.2 ⟨of_decide_eq_true h, rfl⟩
  | rst1 _ _ | dinit1 _ _ => exact decodeWidth_eq_ok.2 ⟨⟨of_decide_eq_true h, le_rfl⟩, rfl⟩
  | _ => rfl

/-! ### The command word as its fields and as a number (rules R100, R105, R108) -/

theorem mkWord_fields {cw : Word} (hzero : zeroField cw = 0) :
    mkWord (opcField cw) (widthField cw) (imm8Field cw) = cw := by
  rw [mkWord, ← hzero, opcField, widthField, imm8Field, zeroField,
    BitVec.extractLsb'_append_extractLsb'_eq_extractLsb' (by decide),
    BitVec.extractLsb'_append_extractLsb'_eq_extractLsb' (by decide),
    BitVec.extractLsb'_append_extractLsb'_eq_extractLsb' (by decide)]
  exact BitVec.extractLsb'_eq_self

/-- The legal words are those the decoder's fields make legal. -/
theorem legalWord_iff (cw : Word) :
    LegalWord cw ↔
      zeroField cw = 0 ∧ FieldsLegal (opcField cw).toNat (widthField cw).toNat (imm8Field cw).toNat := by
  have hopc : (opcField cw).toNat = cw.toNat / 2 ^ 24 := by
    rw [opcField, BitVec.extractLsb'_toNat, Nat.shiftRight_eq_div_pow]; omega
  have hwidth : (widthField cw).toNat = cw.toNat / 2 ^ 16 % 2 ^ 8 := by
    rw [widthField, BitVec.extractLsb'_toNat, Nat.shiftRight_eq_div_pow]
  have himm8 : (imm8Field cw).toNat = cw.toNat / 2 ^ 8 % 2 ^ 8 := by
    rw [imm8Field, BitVec.extractLsb'_toNat, Nat.shiftRight_eq_div_pow]
  have hzero : zeroField cw = 0 ↔ cw.toNat % 2 ^ 8 = 0 := by
    rw [zeroField, ← toNat_le_zero_iff, Nat.le_zero, BitVec.extractLsb'_toNat, Nat.shiftRight_zero]
  rw [hzero, hopc, hwidth, himm8]

/-! ### Decoding a command (rules R100, R105) -/

theorem decode_encode {i : Instr} (h : i.wf = true) : decode (encode i) = .ok i := by
  obtain ⟨hopc, hwidth, himm8, hzero, harg⟩ := Laws.EncodedFields.of_mkWord i
  rw [decode, if_neg (not_not.2 hzero), hopc, hwidth, himm8, harg, decodeFields_of_wf h]

theorem decode_eq_ok {c : Command} {i : Instr} :
    decode c = .ok i ↔ zeroField c.cw = 0 ∧
      decodeFields (opcField c.cw) (widthField c.cw) (imm8Field c.cw) c.arg = .ok i := by
  rw [decode]
  split_ifs with hzero
  · simp only [hzero, false_and]
  · simp only [not_not.1 hzero, true_and]

theorem wf_and_encode_of_decode {c : Command} {i : Instr} (h : decode c = .ok i) : i.wf = true ∧ encode i = c := by
  obtain ⟨hzero, hfields⟩ := decode_eq_ok.1 h
  obtain ⟨hwf, hopc, hwidth, himm8, harg⟩ := fields_of_decodeFields hfields
  exact ⟨hwf, by rw [encode, encodeWord, hopc, hwidth, himm8, harg, mkWord_fields hzero]⟩

theorem decode_isOk_iff (c : Command) : (∃ i, decode c = .ok i) ↔ LegalWord c.cw := by
  simp only [decode_eq_ok, exists_and_left, decodeFields_isOk_iff, legalWord_iff]

/-- A well-formed command is found in the table under its word, when its operand is the 0 a row leaves out. -/
theorem decodeTableWord_encodeWord {i : Instr} (h : i.wf = true) (harg : argOf i = 0) :
    decodeTableWord 32 (encodeWord i).toNat = some i := by
  have hlt := (encodeWord i).isLt
  have hcommand : commandOfBits 32 (encodeWord i).toNat = encode i := by
    rw [commandOfBits, encode, harg, Nat.mod_eq_of_lt hlt, BitVec.ofNat_toNat, BitVec.setWidth_eq,
      Nat.div_eq_of_lt hlt]
    rfl
  rw [decodeTableWord, hcommand, decode_encode h]

end Sys2Proof

namespace Sys2Proof.Machine

/-! ### A presented command (rules R345 to R347) -/

theorem presentCommand_of_decode {c : Command} {i : Instr} (h : decode c = .ok i) (s : State) :
    presentCommand c s = exec i s := by rw [presentCommand, h]

theorem presentCommand_of_illegal {c : Command} {s : State} (hrun : s.Running) (h : ¬LegalWord c.cw) :
    presentCommand c s = .next (enterFault .illegalCommand c s) := by
  cases hd : decode c with
  | ok i => exact absurd ((decode_isOk_iff c).1 ⟨i, hd⟩) h
  | error e => rw [presentCommand, hd]; simp only [illegalWord, hrun]; rfl

theorem presentCommand_of_fault (c : Command) {s : State} (h : s.fault = true) : presentCommand c s = .next s := by
  cases hd : decode c with
  | ok i =>
    obtain ⟨body, hbody⟩ := exec_eq_command i s
    rw [presentCommand_of_decode hd, hbody, command_of_fault h]
  | error e => rw [presentCommand, hd]; simp only [illegalWord, h]; rfl

/-- No command touches the capacities or what the host does next, however it ends. -/
theorem exec_keeps_port_params {i : Instr} {s t : State} (h : exec i s = .next t) :
    t.port = s.port ∧ t.params = s.params := by
  rcases exec_ends h with ⟨-, rfl⟩ | ⟨-, code, rfl⟩ | ⟨-, -, heff⟩
  · exact ⟨rfl, rfl⟩
  · exact ⟨rfl, rfl⟩
  · obtain ⟨-, -, -, -, -, hparams, hport⟩ := effect_keeps heff
    exact ⟨hport, hparams⟩

theorem step_of_idle {s : State} (h : s.port = []) : step s = .next s := by rw [step, h]

theorem step_of_command {s : State} {c : Command} {rest : List HostAction} (h : s.port = .command c :: rest) :
    step s = presentCommand c (s.setPort rest) := by rw [step, h]; rfl

/-! ### The bytes of a varint (rules R12, R15, R92) -/

/-- A number fits `n` groups of 7 bits exactly when its bit width does. -/
theorem bitWidth_le_seven_mul_iff {u n : Nat} : bitWidth u ≤ 7 * n ↔ u < 128 ^ n := by
  rw [bitWidth_le_iff, Nat.pow_mul]

/-- Dropping the lowest group takes 7 bits off the width. -/
theorem bitWidth_div_128 (u : Nat) : bitWidth (u / 128) = bitWidth u - 7 :=
  eq_of_forall_ge_iff fun n => by
    rw [bitWidth_le_iff, Nat.sub_le_iff_le_add, bitWidth_le_iff, Nat.pow_add, Nat.div_lt_iff_lt_mul (by decide)]

theorem div_128_ne_zero_iff {u : Nat} : u / 128 ≠ 0 ↔ 7 < bitWidth u := by
  rw [← not_le, show 7 = 7 * 1 from rfl, bitWidth_le_seven_mul_iff]
  omega

/-- With turns enough, the loop gives the number of bytes of rule R15. -/
theorem varintLoop_length {fuel u : Nat} (h : bitWidth u < fuel) : (varintLoop fuel u).length = varlen u := by
  induction fuel generalizing u with
  | zero => omega
  | succ fuel ih =>
    have hdiv := bitWidth_div_128 u
    rw [varintLoop]
    split
    · next hmore =>
      have hbig := div_128_ne_zero_iff.1 hmore
      rw [List.length_cons, ih (by omega), varlen, varlen, hdiv]
      omega
    · next hlast =>
      have hsmall := mt div_128_ne_zero_iff.2 hlast
      rw [List.length_singleton, varlen]
      omega

/-- Byte `k` holds group `k` under a continuation bit that only the last byte lacks. -/
theorem varintLoop_getD {fuel u k : Nat} (h : bitWidth u < fuel) (hk : k < varlen u) :
    ((varintLoop fuel u).getD k 0).toNat = u / 128 ^ k % 128 + if k + 1 < varlen u then 128 else 0 := by
  induction fuel generalizing u k with
  | zero => omega
  | succ fuel ih =>
    have hdiv := bitWidth_div_128 u
    have hlen : varlen u = max 1 ((bitWidth u + 6) / 7) := rfl
    rw [varintLoop]
    split
    · next hmore =>
      have hbig := div_128_ne_zero_iff.1 hmore
      have htail : varlen u = varlen (u / 128) + 1 := by rw [varlen, varlen, hdiv]; omega
      cases k with
      | zero =>
        rw [List.getD_cons_zero, BitVec.toNat_ofNat, if_pos (by omega), Nat.pow_zero, Nat.div_one]
        omega
      | succ k =>
        rw [List.getD_cons_succ, ih (by omega) (by omega), Nat.div_div_eq_div_mul, ← Nat.pow_succ', htail]
        simp only [Nat.add_lt_add_iff_right]
    · next hlast =>
      have hsmall := mt div_128_ne_zero_iff.2 hlast
      obtain rfl : k = 0 := by omega
      rw [List.getD_cons_zero, BitVec.toNat_ofNat, if_neg (by omega), Nat.pow_zero, Nat.div_one]
      omega

theorem varint_length (u : Nat) : (varint u).length = varlen u := varintLoop_length (Nat.lt_succ_self _)

theorem varint_getD {u k : Nat} (hk : k < varlen u) :
    ((varint u).getD k 0).toNat = u / 128 ^ k % 128 + if k + 1 < varlen u then 128 else 0 :=
  varintLoop_getD (Nat.lt_succ_self _) hk

theorem one_le_varlen (u : Nat) : 1 ≤ varlen u := le_max_left _ _

/-- A varint is no longer than `n` bytes exactly when `n` groups of 7 bits hold the value. -/
theorem varlen_le_iff {u n : Nat} (hn : 1 ≤ n) : varlen u ≤ n ↔ u < 128 ^ n := by
  rw [← bitWidth_le_seven_mul_iff, varlen]
  omega

/-! ### The statements -/

/-- Settles O1: every field of the encoded word comes back, and the decoder answers the command for its own fields. -/
theorem decodeOfEncode : Obligations.DecodeOfEncode := fun _ => decode_encode

/-- Settles O2: the fields the decoder read are those the encoder writes, and with the zero field they are the word. -/
theorem encodeOfDecode : Obligations.EncodeOfDecode := fun _ _ => wf_and_encode_of_decode

/-- Settles O3: the decoder's checks are the limits of the table, and what it rejects enters the fault state. -/
theorem illegalWordsRaise : Obligations.IllegalWordsRaise :=
  fun c _ => ⟨decode_isOk_iff c, presentCommand_of_illegal⟩

/-- Settles O21: the length is the number of 7-bit groups, so minimality and the bounds are facts about the groups. -/
theorem varintBytes : Obligations.VarintBytes := by
  intro u
  rw [varint_length]
  refine ⟨one_le_varlen u, (varlen_le_iff (one_le_varlen u)).1 le_rfl, fun h2 => ?_, fun k => varint_getD,
    fun h32 => ?_, fun h64 => ?_, rfl⟩
  · have hshort : ¬varlen u ≤ varlen u - 1 := by omega
    rwa [varlen_le_iff (by omega), not_lt] at hshort
  · exact (varlen_le_iff (by decide)).2 (h32.trans (by decide))
  · exact (varlen_le_iff (by decide)).2 (h64.trans (by decide))

/-- Settles O4: each word is the encoding of a well-formed command, but for the last, whose opcode is not assigned. -/
theorem familyWordsDecode : Obligations.FamilyWordsDecode :=
  ⟨decodeTableWord_encodeWord (i := .obpoke 0x7F 0) rfl rfl, decodeTableWord_encodeWord (i := .bitw64 0) rfl rfl,
    decodeTableWord_encodeWord (i := .wpack32 3 8 0) rfl rfl,
    decodeTableWord_encodeWord (i := .rpack64 33 64 0) rfl rfl, decodeTableWord_encodeWord (i := .enc5 0) rfl rfl,
    decodeTableWord_encodeWord (i := .fin0 0) rfl rfl, decodeTableWord_encodeWord (i := .rst1 32 0) rfl rfl,
    decodeTableWord_encodeWord (i := .size2 0) rfl rfl, decodeTableWord_encodeWord (i := .est3 0) rfl rfl,
    decodeTableWord_encodeWord (i := .wto4 0) rfl rfl, decodeTableWord_encodeWord (i := .dinit1 3 0) rfl rfl,
    decodeTableWord_encodeWord (i := .dec3 0) rfl rfl, rfl⟩

/-- Settles O5: a step presents the command to the block without it in the queue, and a command keeps the queue. -/
theorem stepRunsDecodedInstruction : Obligations.StepRunsDecodedInstruction := by
  refine ⟨fun _ => step_of_idle, fun s c rest hport => ⟨fun hrun hillegal => ?_, fun hfault => ?_⟩,
    fun s c rest i hport hdec => ?_⟩
  · exact (step_of_command hport).trans (presentCommand_of_illegal (s := s.setPort rest) hrun hillegal)
  · exact (step_of_command hport).trans (presentCommand_of_fault c (s := s.setPort rest) hfault)
  · have hstep : step s = exec i (s.setPort rest) := by
      rw [step_of_command hport, presentCommand_of_decode hdec]
    obtain ⟨hwf, -⟩ := wf_and_encode_of_decode hdec
    exact ⟨hwf, hstep, fun t ht => exec_keeps_port_params (hstep ▸ ht)⟩

end Sys2Proof.Machine
end

section
/-! PROOFS. What the management commands and the pure functions do to the state (rules R131 to R143): the exact next
state, or the fault and nothing else. -/

namespace Sys2Proof.Machine

/-! ### The operand, OB and `V` (rules R101, R133, R137) -/

theorem argWord_toNat (arg : DWord) : (argWord arg).toNat = arg.toNat % 2 ^ 32 := BitVec.toNat_setWidth 32 arg

/-- Overwriting a defined byte of OB: the host reads the new byte there and the old ones elsewhere. -/
theorem readOB_set {s : State} {n : Nat} (hn : n < s.ob.length) (byte : Byte) (k : Nat) :
    readOB { s with ob := s.ob.set n byte } k = if k = n then some byte else readOB s k := by
  unfold readOB
  split
  · next hk => rw [hk, List.getElem?_set_self hn]
  · next hk => rw [List.getElem?_set_ne (Ne.symm hk)]

theorem getElem_setLane (v : Vector DWord 128) (lane : Nat) (x : DWord) (k : Nat) (hk : k < 128) :
    (v.setIfInBounds lane x)[k] = if k = lane then x else v[k] := by
  rw [Vector.getElem_setIfInBounds hk]
  simp only [eq_comm]

/-! ### The pure functions as numbers in `R` (rules R12 to R14, R101) -/

/-- A bit width above 0 is reached: one bit less does not hold the number (rule R12). -/
theorem le_of_bitWidth_pos {x : Nat} (h : 0 < bitWidth x) : 2 ^ (bitWidth x - 1) ≤ x := by
  have hless : ¬bitWidth x ≤ bitWidth x - 1 := by omega
  rwa [bitWidth_le_iff, not_lt] at hless

/-- The bit width of an `n`-bit operand, pinned from both sides (rules R138, R139). -/
theorem bitWidth_bounds {n x : Nat} (h : x < 2 ^ n) :
    bitWidth x ≤ n ∧ x < 2 ^ bitWidth x ∧ (0 < bitWidth x → 2 ^ (bitWidth x - 1) ≤ x) :=
  ⟨bitWidth_le_iff.2 h, bitWidth_lt x, le_of_bitWidth_pos⟩

theorem zext64_eq_ofInt {n : Nat} (x : BitVec n) : zext64 x = BitVec.ofInt 64 x.toNat := by
  rw [BitVec.ofInt_natCast, BitVec.ofNat_toNat, zext64]

/-- A 64-bit result fills `R` as it is (rule R101). -/
@[simp] theorem zext64_dword (x : DWord) : zext64 x = x := BitVec.setWidth_eq x

@[simp] theorem sext64_dword (x : DWord) : sext64 x = x := BitVec.signExtend_eq x

/-- The zigzag number, zero-extended into `R`, is its closed form (rules R140, R141). -/
theorem zext64_zigzag {n : Nat} (hn : 0 < n) (v : BitVec n) :
    zext64 (zigzag v) = BitVec.ofInt 64 (if 0 ≤ v.toInt then 2 * v.toInt else -2 * v.toInt - 1) := by
  rw [zext64_eq_ofInt, zigzag_toNat hn]

/-- The signed number, sign-extended into `R`, is its closed form (rules R142, R143). -/
theorem sext64_unzigzag {n : Nat} (hn : 0 < n) (u : BitVec n) :
    sext64 (unzigzag u) = BitVec.ofInt 64 (unzigzagInt u.toNat) := by
  rw [sext64, BitVec.signExtend, unzigzag_toInt hn]

/-- A legal command of a running block whose body writes `R` and nothing else. -/
theorem command_setR {i : Instr} {s : State} {x y : DWord} (hrun : s.Running) (hwf : i.wf = true) (hxy : x = y) :
    command i s (.ok (s.setR x)) = .next { s with r := y } := by
  rw [command_ok hrun hwf rfl, hxy, State.setR]

/-! ### The statements -/

/-- Settles O24: below `OBLEN` the byte is set in place, else the guard raises `BAD_RANGE`. -/
theorem obpokeResult : Obligations.ObpokeResult := by
  intro byte arg s hrun
  rw [← argWord_toNat]
  refine ⟨fun hin => ⟨s.ob.set (argWord arg).toNat byte, ?_, List.length_set, readOB_set hin byte⟩, fun hout => ?_⟩
  · exact command_ok hrun rfl (if_neg (not_le.2 hin))
  · exact command_error hrun rfl (if_pos hout)

/-- Settles O26: a sum within `RCLIM` is below `2^32`, so the new limit is the sum itself. -/
theorem rcsliceResult : Obligations.RcsliceResult := by
  intro arg s hrun
  rw [← argWord_toNat]
  refine ⟨fun hin => ⟨BitVec.ofNat 32 (s.rc.pos.toNat + (argWord arg).toNat), ?_, toNat_ofNat_of_le hin⟩,
    fun hout => ?_⟩
  · exact command_ok hrun rfl (if_neg (not_lt.2 hin))
  · exact command_error hrun rfl (if_pos hout)

/-- Settles O27: the widths by their bounds, the zigzag forms by their closed forms. -/
theorem pureFunctionResults : Obligations.PureFunctionResults := by
  intro arg s hrun
  refine ⟨⟨bitWidth (argWord arg).toNat, ?bitw32, ?bounds32⟩, ⟨bitWidth arg.toNat, ?bitw64, bitWidth_bounds arg.isLt⟩,
    ?zze32, ?zze64, ?zzd32, ?zzd64⟩
  case bitw32 => exact command_setR hrun rfl rfl
  case bounds32 => exact bitWidth_bounds (argWord arg).isLt
  case bitw64 => exact command_setR hrun rfl rfl
  case zze32 => exact command_setR hrun rfl (zext64_zigzag (by decide) (argWord arg))
  case zze64 => exact command_setR hrun rfl ((zext64_dword _).symm.trans (zext64_zigzag (by decide) arg))
  case zzd32 => exact command_setR hrun rfl (sext64_unzigzag (by decide) (argWord arg))
  case zzd64 => exact command_setR hrun rfl ((sext64_dword _).symm.trans (sext64_unzigzag (by decide) arg))

/-- Settles O23: each of these commands always completes; `VSET` touches the lane it names. -/
theorem managementCommandResults : Obligations.ManagementCommandResults := by
  intro arg s hrun
  refine ⟨command_ok hrun rfl rfl, command_ok hrun rfl rfl, command_ok hrun rfl rfl, fun lane hlane => ?_⟩
  have hwf : (Instr.vset lane arg).wf = true := decide_eq_true hlane
  exact ⟨s.v.setIfInBounds lane.toNat arg, command_ok hrun hwf rfl, getElem_setLane s.v lane.toNat arg⟩

/-- Settles O25: within `IBCAP` the stream is attached and the decoders dropped, else the guard raises `BAD_RANGE`. -/
theorem rcattResult : Obligations.RcattResult := by
  intro arg s hrun
  rw [← argWord_toNat]
  refine ⟨fun hin => ?_, fun hout => ?_⟩
  · exact command_ok hrun rfl (if_neg (not_lt.2 hin))
  · exact command_error hrun rfl (if_pos hout)

end Sys2Proof.Machine
end

section
/-! PROOFS. What the write primitives append to OB (rules R160 to R169): the exact bytes, or `CAPACITY` and nothing
else. -/

namespace Sys2Proof.Machine

/-! ### The append of a write primitive (rules R9, R160) -/

/-- A legal command of a running block whose body appends `b` to OB and does nothing else. -/
theorem appendsToOB_of_exec {i : Instr} {s : State} {b : Bytes} (hrun : s.Running) (hwf : i.wf = true)
    (hexec : exec i s = command i s (appendOB s b)) : AppendsToOB i s b := by
  refine ⟨fun hfits => ?_, fun hfull => ?_⟩ <;> rw [hexec]
  · exact command_ok hrun hwf (appendOB_eq_ok.2 ⟨hfits, rfl⟩)
  · exact command_error hrun hwf (appendOB_eq_error.2 ⟨hfull, rfl⟩)

/-! ### The bytes of a fixed-width operand (rule R8) -/

theorem bytesLE_getD_toNat {n k : Nat} (x : Nat) (hk : k < n) :
    ((bytesLE x n).getD k 0).toNat = x / 256 ^ k % 256 := by
  rw [bytesLE_getD n x k hk, BitVec.toNat_ofNat]

/-- The first `n` bytes depend on the low `8n` bits alone. -/
theorem bytesLE_mod (n x : Nat) : bytesLE (x % 256 ^ n) n = bytesLE x n := by
  induction n generalizing x with
  | zero => rfl
  | succ n ih =>
    have hlow : BitVec.ofNat 8 (x % 256 ^ (n + 1)) = BitVec.ofNat 8 x := by
      apply BitVec.eq_of_toNat_eq
      rw [BitVec.toNat_ofNat, BitVec.toNat_ofNat]
      exact Nat.mod_mod_of_dvd x ⟨256 ^ n, Nat.pow_succ'⟩
    have hhigh : x % 256 ^ (n + 1) / 256 = x / 256 % 256 ^ n := by
      rw [Nat.pow_succ', Nat.mod_mul_right_div_self]
    rw [bytesLE, bytesLE, hlow, hhigh, ih]

theorem bytesLE_argWord (arg : DWord) : bytesLE (argWord arg).toNat 4 = bytesLE arg.toNat 4 := by
  rw [argWord_toNat]
  exact bytesLE_mod 4 arg.toNat

/-! ### The number of a signed operand (rule R13) -/

theorem zigzag_toNat_eq {n : Nat} (hn : 0 < n) (v : BitVec n) :
    (zigzag v).toNat = (if 0 ≤ v.toInt then 2 * v.toInt else -2 * v.toInt - 1).toNat := by
  rw [← zigzag_toNat hn, Int.toNat_natCast]

/-! ### The lanes of a vector operand (rule R101) -/

@[simp] theorem lanes_length {n : Nat} (hn : n ≤ 128) (v : Vector DWord 128) : (lanes v n).length = n := by
  rw [lanes, List.length_take, Vector.length_toList, Nat.min_eq_left hn]

theorem map_lanes {α : Type} {n : Nat} (hn : n ≤ 128) (v : Vector DWord 128) (f : DWord → α) :
    (lanes v n).map f = (List.range n).map fun k => f (v.toList.getD k 0) := by
  refine List.ext_getElem (by simp [hn]) fun k hk _ => ?_
  rw [List.length_map, lanes_length hn] at hk
  have hlane : k < v.toList.length := by rw [Vector.length_toList]; omega
  rw [List.getElem_map, List.getElem_map, List.getElem_range, List.getD_eq_getElem _ _ hlane]
  exact congrArg f List.getElem_take

/-- Packed lanes fill `ceil(n*w/8)` bytes, whatever each lane contributes (rules R167, R168). -/
theorem pack_lanes_length {n : Nat} (hn : n ≤ 128) (v : Vector DWord 128) (f : DWord → Nat) (w : Nat) :
    (pack ((lanes v n).map f) w).length = (n * w + 7) / 8 := by
  rw [pack_length, List.length_map, lanes_length hn]

/-! ### Eight booleans in a byte (rules R18, R101) -/

theorem pbool_append_singleton (bits : List Bool) (b : Bool) :
    pbool (bits ++ [b]) = (pbool bits <<< 1) ||| (BitVec.ofBool b).setWidth 8 :=
  List.foldl_concat _ _ _ _

/-- Each boolean pushes the ones before it up by a bit, so bit `j` is the boolean `j` places from the end. -/
theorem pbool_getLsbD (bits : List Bool) {j : Nat} (hj : j < 8) :
    (pbool bits).getLsbD j = bits.reverse.getD j false := by
  induction bits using List.reverseRecOn generalizing j with
  | nil => simp [pbool]
  | append_singleton bits b ih =>
    rw [pbool_append_singleton, List.reverse_concat, BitVec.getLsbD_or]
    cases j with
    | zero => simp
    | succ j =>
      rw [BitVec.getLsbD_shiftLeft, List.getD_cons_succ, ← ih (Nat.lt_of_succ_lt hj)]
      simp [hj]

theorem argBools_getD (arg : DWord) {k : Nat} (hk : k < 8) : (argBools arg).getD k false = arg.getLsbD k := by
  simp [argBools, boolsOfByte, hk]

/-- The packed byte is the operand byte with its bits reversed (rule R169). -/
theorem pbool_argBools_getLsbD (arg : DWord) {k : Nat} (hk : k < 8) :
    (pbool (argBools arg)).getLsbD (7 - k) = arg.getLsbD k := by
  have hlen : (argBools arg).length = 8 := by simp [argBools, boolsOfByte]
  rw [pbool_getLsbD _ (by omega), List.getD_reverse _ (by omega), hlen, show 8 - 1 - (7 - k) = k by omega,
    argBools_getD arg hk]

/-! ### The statements -/

/-- Settles O28: the bytes are the operand's little-endian ones, and the first four do not see its upper half. -/
theorem fixedWidthWriteResults : Obligations.FixedWidthWriteResults := by
  intro arg s hrun
  refine ⟨⟨bytesLE arg.toNat 4, ?wfix32, bytesLE_length _ _, fun _ => bytesLE_getD_toNat _⟩,
    ⟨bytesLE arg.toNat 8, ?wfix64, bytesLE_length _ _, fun _ => bytesLE_getD_toNat _⟩⟩
  case wfix32 => exact bytesLE_argWord arg ▸ appendsToOB_of_exec hrun rfl rfl
  case wfix64 => exact appendsToOB_of_exec hrun rfl rfl

/-- Settles O29: each command appends one varint, of the operand's number or of its zigzag number. -/
theorem varintWriteResults : Obligations.VarintWriteResults := by
  intro arg s hrun
  refine ⟨?wvar32, ?wvar64, ?wzz32, ?wzz64⟩
  case wvar32 => exact argWord_toNat arg ▸ appendsToOB_of_exec hrun rfl rfl
  case wvar64 => exact appendsToOB_of_exec hrun rfl rfl
  case wzz32 => exact zigzag_toNat_eq (by decide) (argWord arg) ▸ appendsToOB_of_exec hrun rfl rfl
  case wzz64 => exact zigzag_toNat_eq (by decide) arg ▸ appendsToOB_of_exec hrun rfl rfl

/-- Settles O30: the packed values are the lanes below the count, all of which `V` has. -/
theorem packWriteResults : Obligations.PackWriteResults := by
  intro width count arg s hrun hcount
  refine ⟨fun hwidth => ⟨_, appendsToOB_of_exec hrun (decide_eq_true ⟨hwidth, hcount⟩) rfl, ?vals32,
      pack_lanes_length hcount _ _ _⟩,
    fun hwidth => ⟨_, appendsToOB_of_exec hrun (decide_eq_true ⟨hwidth, hcount⟩) rfl, ?vals64,
      pack_lanes_length hcount _ _ _⟩⟩
  case vals32 => simp only [map_lanes hcount, argWord_toNat]
  case vals64 => rw [map_lanes hcount]

/-- Settles O31: the one byte appended holds the operand's booleans, the first in its top bit. -/
theorem booleanWriteResult : Obligations.BooleanWriteResult := by
  intro arg s hrun
  exact ⟨pbool (argBools arg), appendsToOB_of_exec hrun rfl rfl, fun _ => pbool_argBools_getLsbD arg⟩

end Sys2Proof.Machine
end

section
/-! PROOFS. What the read primitives read at the main cursor (rules R180 to R189): the exact value and the bytes the
cursor moves over, or the fault and nothing else. -/

namespace Sys2Proof.Machine

/-! ### A read primitive at the main cursor (rules R9, R180) -/

theorem Cursor.advance_zero (c : Cursor) : c.advance 0 = c := by
  simp [Cursor.advance]

/-- A cursor moved within its limit stands at the exact sum; one not moved stays, wherever its limit is. -/
theorem Cursor.advance_pos_toNat {c : Cursor} {n : Nat} (h : n = 0 ∨ c.pos.toNat + n ≤ c.lim.toNat) :
    (c.advance n).pos.toNat = c.pos.toNat + n := by
  rcases h with rfl | h
  · rw [Cursor.advance_zero, Nat.add_zero]
  · exact toNat_ofNat_of_le h

theorem Cursor.advance_advance (c : Cursor) (j n : Nat) : (c.advance j).advance n = c.advance (j + n) := by
  simp only [Cursor.advance, BitVec.toNat_ofNat, Cursor.mk.injEq, and_true]
  exact BitVec.eq_of_toNat_eq (by simp only [BitVec.toNat_ofNat]; omega)

/-- A legal command of a running block that takes `n` bytes: what `f` makes of them, or `READ_PAST_END`. -/
theorem exec_of_takeRC {i : Instr} {s : State} {n : Nat} {f : Bytes × State → State} (hrun : s.Running)
    (hwf : i.wf = true) (hexec : exec i s = command i s (takeRC s n >>= fun x => .ok (f x))) :
    (s.rc.pos.toNat + n ≤ s.rc.lim.toNat →
      exec i s = .next (f (s.ib.readBytes s.rc.pos.toNat n, s.setRC (s.rc.advance n)))) ∧
    (s.rc.lim.toNat < s.rc.pos.toNat + n → exec i s = .next (enterFault .readPastEnd (encode i) s)) := by
  rw [hexec]
  refine ⟨fun hin => ?_, fun hout => ?_⟩
  · exact command_ok hrun hwf (bind_eq_ok.2 ⟨_, takeRC_eq_ok.2 ⟨hin, rfl⟩, rfl⟩)
  · exact command_error hrun hwf (bind_eq_error.2 (.inl (takeRC_eq_error.2 ⟨hout, rfl⟩)))

/-- The same where the bytes give the value `r` of `R`. -/
theorem exec_of_takeRC_setR {i : Instr} {s : State} {n : Nat} {f : Bytes → DWord} {r : DWord} (hrun : s.Running)
    (hwf : i.wf = true) (hexec : exec i s = command i s (takeRC s n >>= fun x => .ok (x.2.setR (f x.1))))
    (hr : f (s.ib.readBytes s.rc.pos.toNat n) = r) :
    (s.rc.pos.toNat + n ≤ s.rc.lim.toNat → exec i s = .next { s with r := r, rc := s.rc.advance n }) ∧
    (s.rc.lim.toNat < s.rc.pos.toNat + n → exec i s = .next (enterFault .readPastEnd (encode i) s)) := by
  rw [← hr]
  exact exec_of_takeRC hrun hwf hexec

/-! ### Fixed-width reads (rules R8, R101) -/

/-- A number below `2^n`, zero-extended into `R`, is itself. -/
theorem zext64_ofNat {n x : Nat} (h : x < 2 ^ n) : zext64 (BitVec.ofNat n x) = BitVec.ofNat 64 x := by
  apply BitVec.eq_of_toNat_eq
  rw [zext64, BitVec.toNat_setWidth, BitVec.toNat_ofNat, BitVec.toNat_ofNat, Nat.mod_eq_of_lt h]

theorem leVal_readBytes_four (m : Memory) (a : Nat) :
    leVal (m.readBytes a 4) = (m.read (a + 0)).toNat + 2 ^ 8 * (m.read (a + 1)).toNat +
      2 ^ 16 * (m.read (a + 2)).toNat + 2 ^ 24 * (m.read (a + 3)).toNat := by
  simp only [Memory.readBytes, leVal, Nat.add_assoc, Nat.add_zero, Nat.reduceAdd]
  omega

theorem leVal_readBytes_eight (m : Memory) (a : Nat) :
    leVal (m.readBytes a 8) = (m.read (a + 0)).toNat + 2 ^ 8 * (m.read (a + 1)).toNat +
      2 ^ 16 * (m.read (a + 2)).toNat + 2 ^ 24 * (m.read (a + 3)).toNat + 2 ^ 32 * (m.read (a + 4)).toNat +
      2 ^ 40 * (m.read (a + 5)).toNat + 2 ^ 48 * (m.read (a + 6)).toNat + 2 ^ 56 * (m.read (a + 7)).toNat := by
  simp only [Memory.readBytes, leVal, Nat.add_assoc, Nat.add_zero, Nat.reduceAdd]
  omega

/-! ### The lanes of a vector result (rules R17, R187) -/

/-- The values of a vector result fill the lanes from `i` on in order, and no other lane. -/
theorem getElem_setLanes {k : Nat} (hk : k < 128) : ∀ (xs : List DWord) (v : Vector DWord 128) (i : Nat),
    (setLanes v i xs)[k] = if i ≤ k ∧ k < i + xs.length then xs.getD (k - i) 0 else v[k]
  | [], v, i => by rw [if_neg (by simp only [List.length_nil]; omega), setLanes]
  | x :: xs, v, i => by
    rw [setLanes, getElem_setLanes hk xs, getElem_setLane, List.length_cons]
    by_cases hfirst : k = i
    · subst hfirst
      rw [if_neg (by omega), if_pos rfl, if_pos (by omega), Nat.sub_self, List.getD_cons_zero]
    · rw [if_neg hfirst]
      by_cases hlater : i + 1 ≤ k ∧ k < i + 1 + xs.length
      · rw [if_pos hlater, if_pos (by omega), show k - i = k - (i + 1) + 1 by omega, List.getD_cons_succ]
      · rw [if_neg hlater, if_neg (by omega)]

/-- Unpacked values in the lanes from 0 on: value `k` of the stream in lane `k` below the count (rule R187). -/
theorem getElem_setLanes_unpack (v : Vector DWord 128) (b : Bytes) (w n : Nat) {k : Nat} (hk : k < 128) :
    (setLanes v 0 ((unpack b w n).map (BitVec.ofNat 64)))[k] =
      if k < n then BitVec.ofNat 64 (leVal b / 2 ^ (k * w) % 2 ^ w) else v[k] := by
  rw [getElem_setLanes hk, List.length_map, unpack_length]
  by_cases hin : k < n
  · rw [if_pos (by omega), if_pos hin, show (0 : DWord) = BitVec.ofNat 64 0 from rfl, List.getD_map, Nat.sub_zero,
      unpack, unpackSum_getD _ hin]
  · rw [if_neg (by omega), if_neg hin]

/-! ### Eight booleans of a byte (rules R18, R101) -/

/-- Boolean `j` of a byte of booleans is its bit `j`. -/
theorem byteOfBools_getLsbD : ∀ (bits : List Bool) {j : Nat}, j < 8 →
    (byteOfBools bits).getLsbD j = bits.getD j false
  | [], _, _ => by simp [byteOfBools]
  | b :: bits, 0, _ => by simp [byteOfBools]
  | b :: bits, j + 1, hj => by
    rw [byteOfBools, BitVec.getLsbD_or, BitVec.getLsbD_shiftLeft, List.getD_cons_succ,
      ← byteOfBools_getLsbD bits (Nat.lt_of_succ_lt hj)]
    simp [hj]

theorem unpbool_getD (y : Byte) {k : Nat} (hk : k < 8) : (unpbool y).getD k false = y.getLsbD (7 - k) := by
  simp [unpbool, hk]

/-- The result of `RPBOOL` is the byte read with its bits reversed, and 0 above them (rule R189). -/
theorem boolsResult_unpbool_getLsbD (y : Byte) (k : Nat) :
    (boolsResult (unpbool y)).getLsbD k = (decide (k < 8) && y.getLsbD (7 - k)) := by
  rw [boolsResult, BitVec.getLsbD_setWidth]
  by_cases hk : k < 8
  · rw [byteOfBools_getLsbD _ hk, unpbool_getD y hk, decide_eq_true (show k < 64 by omega), decide_eq_true hk]
  · rw [BitVec.getLsbD_of_ge _ _ (Nat.le_of_not_lt hk), decide_eq_false hk, Bool.and_false, Bool.false_and]

/-! ### The number in 7-bit groups (rule R63) -/

theorem groupSum_lt (m : Memory) : ∀ (n a : Nat), groupSum m a n < 128 ^ n
  | 0, _ => Nat.one_pos
  | n + 1, a => by
    have hrest := groupSum_lt m n (a + 1)
    rw [groupSum, Nat.pow_succ]
    omega

/-- One more byte adds its group above the others. -/
theorem groupSum_succ (m : Memory) : ∀ (n a : Nat),
    groupSum m a (n + 1) = groupSum m a n + 128 ^ n * ((m.read (a + n)).toNat % 128)
  | 0, a => by simp [groupSum]
  | n + 1, a => by
    rw [groupSum, groupSum_succ m n (a + 1), groupSum, Nat.pow_succ', Nat.add_right_comm a 1 n, Nat.mul_add,
      Nat.mul_assoc, Nat.add_assoc a n 1, Nat.add_assoc]

/-- The same as rule R19 gathers it: the group shifted into the bits above. -/
theorem groupSum_succ_or (m : Memory) (n a : Nat) :
    groupSum m a (n + 1) = groupSum m a n ||| ((m.read (a + n)).toNat % 128) <<< (7 * n) := by
  have hlow : groupSum m a n < 2 ^ (7 * n) := by
    rw [Nat.pow_mul]
    exact groupSum_lt m n a
  rw [groupSum_succ, Nat.or_comm, ← Nat.shiftLeft_add_eq_or_of_lt hlow, Nat.shiftLeft_eq, Nat.pow_mul,
    Nat.add_comm, Nat.mul_comm]

/-! ### The varint loop, turn by turn (rule R19) -/

/-- One turn with a byte before the limit: the byte is the one at the cursor. -/
theorem readVarintLoop_turn {n left k res : Nat} {m : Memory} {c : Cursor} (hin : c.pos.toNat + 1 ≤ c.lim.toNat) :
    readVarintLoop n m (left + 1) k res c =
      if left = 0 ∧ 128 ≤ (m.read c.pos.toNat).toNat then .error .varintUnterminated
      else if left = 0 ∧ ((m.read c.pos.toNat).toNat % 128) >>> (n - 7 * k) ≠ 0 then .error .varintExcess
      else if (m.read c.pos.toNat).toNat < 128 then
        .ok (res ||| (((m.read c.pos.toNat).toNat % 128) <<< (7 * k)), c.advance 1)
      else readVarintLoop n m left (k + 1) (res ||| (((m.read c.pos.toNat).toNat % 128) <<< (7 * k)))
        (c.advance 1) := by
  rw [readVarintLoop_succ, takeByte_eq_ok.2 ⟨hin, rfl⟩]
  rfl

theorem readVarintLoop_past {n left k res : Nat} {m : Memory} {c : Cursor} (hout : c.lim.toNat < c.pos.toNat + 1) :
    readVarintLoop n m (left + 1) k res c = .error .readPastEnd := by
  rw [readVarintLoop_succ, takeByte_eq_error.2 ⟨hout, rfl⟩]
  rfl

/-- `j` bytes from `a` on that all have the continuation bit. -/
abbrev Continues (m : Memory) (a j : Nat) : Prop := ∀ k, k < j → 128 ≤ (m.read (a + k)).toNat

/-- Behind `j` continuation bytes, with turns left: the loop has their groups and stands behind them. -/
theorem readVarintLoop_behind {n left : Nat} {m : Memory} {c : Cursor} (hleft : 0 < left) : ∀ {j : Nat},
    Continues m c.pos.toNat j → (j = 0 ∨ c.pos.toNat + j ≤ c.lim.toNat) →
    readVarintLoop n m (left + j) 0 0 c = readVarintLoop n m left j (groupSum m c.pos.toNat j) (c.advance j)
  | 0, _, _ => by rw [Cursor.advance_zero]; rfl
  | j + 1, hmore, hin => by
    have hin' : c.pos.toNat + (j + 1) ≤ c.lim.toNat := hin.resolve_left (Nat.succ_ne_zero j)
    have hpos : (c.advance j).pos.toNat = c.pos.toNat + j := Cursor.advance_pos_toNat (.inr (by omega))
    have hbyte := hmore j (Nat.lt_succ_self j)
    have hbefore := readVarintLoop_behind (n := n) (left := left + 1) (Nat.succ_pos left)
      (fun k hk => hmore k (Nat.lt_succ_of_lt hk)) (.inr (show c.pos.toNat + j ≤ c.lim.toNat by omega))
    rw [← Nat.add_assoc, Nat.add_right_comm, hbefore, readVarintLoop_turn (by rw [hpos]; exact hin'), hpos,
      if_neg (by omega), if_neg (by omega), if_neg (by omega), ← groupSum_succ_or, Cursor.advance_advance]

/-! ### A varint read whole, and its faults (rules R19, R63) -/

/-- A varint of `n` bytes from `a` on is one of an `N`-bit value: shorter than permitted, or of the permitted length
with no bit beyond the width in its last byte. -/
abbrev VarintFits (N : Nat) (m : Memory) (a n : Nat) : Prop :=
  n < maxVarintBytes N ∨ (n = maxVarintBytes N ∧ (m.read (a + (n - 1))).toNat < 2 ^ (N - 7 * (n - 1)))

/-- The value of a varint that fits is below `2^N`. -/
theorem groupSum_lt_of_fits {N n a : Nat} {m : Memory} (hn : 1 ≤ n) (hfits : VarintFits N m a n) :
    groupSum m a n < 2 ^ N := by
  unfold VarintFits maxVarintBytes at hfits
  rcases hfits with hshort | ⟨hlong, hlast⟩
  · calc groupSum m a n < (2 ^ 7) ^ n := groupSum_lt m n a
      _ = 2 ^ (7 * n) := (Nat.pow_mul 2 7 n).symm
      _ ≤ 2 ^ N := Nat.pow_le_pow_right (by decide) (by omega)
  · obtain ⟨j, rfl⟩ : ∃ j, n = j + 1 := ⟨n - 1, by omega⟩
    rw [Nat.add_sub_cancel] at hlast
    have hlow := groupSum_lt m j a
    have hgroup : (m.read (a + j)).toNat % 128 + 1 ≤ 2 ^ (N - 7 * j) :=
      (Nat.succ_le_succ (Nat.mod_le _ _)).trans hlast
    rw [groupSum_succ]
    calc _ < 128 ^ j * ((m.read (a + j)).toNat % 128 + 1) := by rw [Nat.mul_succ]; omega
      _ ≤ (2 ^ 7) ^ j * 2 ^ (N - 7 * j) := Nat.mul_le_mul_left _ hgroup
      _ = 2 ^ N := by rw [← Nat.pow_mul, ← Nat.pow_add]; congr 1; omega

/-- A varint that fits is read whole: its value, and the cursor moved over its bytes alone. -/
theorem readVarint_of_varintAt {N n : Nat} {m : Memory} {c : Cursor} (hvar : VarintAt m c.pos.toNat n)
    (hin : c.pos.toNat + n ≤ c.lim.toNat) (hfits : VarintFits N m c.pos.toNat n) :
    readVarint N m c = .ok (BitVec.ofNat N (groupSum m c.pos.toNat n), c.advance n) := by
  obtain ⟨hn, hmore, hend⟩ := hvar
  obtain ⟨j, rfl⟩ : ∃ j, n = j + 1 := ⟨n - 1, by omega⟩
  rw [Nat.add_sub_cancel] at hend
  obtain ⟨left, hleft⟩ : ∃ left, maxVarintBytes N = left + 1 + j := ⟨maxVarintBytes N - (j + 1), by omega⟩
  have hpos : (c.advance j).pos.toNat = c.pos.toNat + j := Cursor.advance_pos_toNat (.inr (by omega))
  have hwidth : ¬(left = 0 ∧ ((m.read (c.pos.toNat + j)).toNat % 128) >>> (N - 7 * j) ≠ 0) := by
    rintro ⟨rfl, hbits⟩
    obtain ⟨-, hlast⟩ := hfits.resolve_left (by omega)
    rw [Nat.add_sub_cancel] at hlast
    rw [Nat.shiftRight_eq_div_pow, Nat.mod_eq_of_lt hend, Nat.div_eq_of_lt hlast] at hbits
    exact hbits rfl
  have hloop : readVarintLoop N m (maxVarintBytes N) 0 0 c = .ok (groupSum m c.pos.toNat (j + 1), c.advance (j + 1)) := by
    rw [hleft, readVarintLoop_behind (Nat.succ_pos left) (fun k hk => hmore k (Nat.succ_lt_succ hk)) (.inr (by omega)),
      readVarintLoop_turn (by rw [hpos]; exact hin), hpos, if_neg (by omega), if_neg hwidth, if_pos hend,
      ← groupSum_succ_or, Cursor.advance_advance]
  rw [readVarint, hloop]
  rfl

section Faults

variable {N n : Nat} {m : Memory} {c : Cursor}

/-- A fault of the loop is the fault of the read. -/
theorem readVarint_of_loop_error {e : FaultCode} (h : readVarintLoop N m (maxVarintBytes N) 0 0 c = .error e) :
    readVarint N m c = .error e := by
  rw [readVarint, h]
  rfl

/-- The view ends behind fewer continuation bytes than a varint may have. -/
theorem readVarint_readPastEnd (hmore : Continues m c.pos.toNat n) (hin : n = 0 ∨ c.pos.toNat + n ≤ c.lim.toNat)
    (hshort : n < maxVarintBytes N) (hend : c.lim.toNat < c.pos.toNat + n + 1) :
    readVarint N m c = .error .readPastEnd := by
  obtain ⟨left, hleft⟩ : ∃ left, maxVarintBytes N = left + 1 + n := ⟨maxVarintBytes N - (n + 1), by omega⟩
  refine readVarint_of_loop_error ?_
  rw [hleft, readVarintLoop_behind (Nat.succ_pos left) hmore hin, readVarintLoop_past]
  rwa [Cursor.advance_pos_toNat hin]

/-- The last permitted byte still has the continuation bit. -/
theorem readVarint_varintUnterminated (hmore : Continues m c.pos.toNat n) (hin : c.pos.toNat + n ≤ c.lim.toNat)
    (hn : 0 < n) (hall : n = maxVarintBytes N) : readVarint N m c = .error .varintUnterminated := by
  obtain ⟨j, rfl⟩ : ∃ j, n = j + 1 := ⟨n - 1, by omega⟩
  have hpos : (c.advance j).pos.toNat = c.pos.toNat + j := Cursor.advance_pos_toNat (.inr (by omega))
  refine readVarint_of_loop_error ?_
  rw [← hall, Nat.add_comm, readVarintLoop_behind Nat.one_pos (fun k hk => hmore k (Nat.lt_succ_of_lt hk))
    (.inr (by omega)), readVarintLoop_turn (by rw [hpos]; exact hin), hpos, if_pos ⟨rfl, hmore j (Nat.lt_succ_self j)⟩]

/-- The last permitted byte ends the varint and holds a bit beyond the width. -/
theorem readVarint_varintExcess (hmore : Continues m c.pos.toNat n) (hin : c.pos.toNat + (n + 1) ≤ c.lim.toNat)
    (hlast : n + 1 = maxVarintBytes N) (hend : (m.read (c.pos.toNat + n)).toNat < 128)
    (hexcess : 2 ^ (N - 7 * n) ≤ (m.read (c.pos.toNat + n)).toNat) : readVarint N m c = .error .varintExcess := by
  have hpos : (c.advance n).pos.toNat = c.pos.toNat + n := Cursor.advance_pos_toNat (.inr (by omega))
  have hbits : ((m.read (c.pos.toNat + n)).toNat % 128) >>> (N - 7 * n) ≠ 0 := by
    rw [Nat.shiftRight_eq_div_pow, Nat.mod_eq_of_lt hend]
    exact (Nat.div_pos hexcess (Nat.two_pow_pos _)).ne'
  refine readVarint_of_loop_error ?_
  rw [← hlast, Nat.add_comm, readVarintLoop_behind Nat.one_pos hmore (.inr (by omega)),
    readVarintLoop_turn (by rw [hpos]; exact hin), hpos, if_neg (by omega), if_pos ⟨rfl, hbits⟩]

end Faults

/-! ### The varint commands (rules R183 to R186) -/

/-- `i` reads a varint of an `N`-bit value through the main cursor and puts `f` of the value in `R`. -/
def ReadsVarint (N : Nat) (i : Instr) (f : BitVec N → DWord) : Prop :=
  i.wf = true ∧ ∀ s, exec i s = command i s (readVarintRC N s >>= fun x => .ok (x.2.setR (f x.1)))

theorem readsVarint_rvar32 (arg : DWord) : ReadsVarint 32 (.rvar32 arg) zext64 := ⟨rfl, fun _ => rfl⟩

theorem readsVarint_rvar64 (arg : DWord) : ReadsVarint 64 (.rvar64 arg) id := ⟨rfl, fun _ => rfl⟩

theorem readsVarint_rzz32 (arg : DWord) : ReadsVarint 32 (.rzz32 arg) fun x => sext64 (unzigzag x) :=
  ⟨rfl, fun _ => rfl⟩

theorem readsVarint_rzz64 (arg : DWord) : ReadsVarint 64 (.rzz64 arg) unzigzag := ⟨rfl, fun _ => rfl⟩

theorem varint_read_of_opcNo {i : Instr} (h : opcNo i ∈ [0x32, 0x33, 0x34, 0x35]) :
    ∃ arg, i = .rvar32 arg ∨ i = .rvar64 arg ∨ i = .rzz32 arg ∨ i = .rzz64 arg := by
  cases i with
  | rvar32 arg => exact ⟨arg, .inl rfl⟩
  | rvar64 arg => exact ⟨arg, .inr (.inl rfl)⟩
  | rzz32 arg => exact ⟨arg, .inr (.inr (.inl rfl))⟩
  | rzz64 arg => exact ⟨arg, .inr (.inr (.inr rfl))⟩
  | _ => simp [opcNo, opcOf] at h

section VarintCommands

variable {N n : Nat} {i : Instr} {f : BitVec N → DWord} {s : State}

/-- A varint that fits, behind a running block's cursor: the value by way of `f`, and the bytes passed over. -/
theorem ReadsVarint.exec_of_varintAt {r : DWord} (h : ReadsVarint N i f) (hrun : s.Running)
    (hvar : VarintAt s.ib s.rc.pos.toNat n) (hin : s.rc.pos.toNat + n ≤ s.rc.lim.toNat)
    (hfits : VarintFits N s.ib s.rc.pos.toNat n) (hr : f (BitVec.ofNat N (groupSum s.ib s.rc.pos.toNat n)) = r) :
    exec i s = .next { s with r := r, rc := s.rc.advance n } := by
  obtain ⟨hwf, hexec⟩ := h
  rw [hexec, ← hr]
  exact command_ok hrun hwf
    (bind_eq_ok.2 ⟨_, readVarintRC_eq_ok.2 ⟨_, _, readVarint_of_varintAt hvar hin hfits, rfl⟩, rfl⟩)

/-- A fault of the read is the fault of the command. -/
theorem ReadsVarint.exec_of_error {e : FaultCode} (h : ReadsVarint N i f) (hrun : s.Running)
    (hread : readVarint N s.ib s.rc = .error e) : exec i s = .next (enterFault e (encode i) s) := by
  obtain ⟨hwf, hexec⟩ := h
  rw [hexec]
  exact command_error hrun hwf (bind_eq_error.2 (.inl (readVarintRC_eq_error.2 hread)))

/-- The three faults behind `n` continuation bytes (rules R183 to R186). -/
theorem ReadsVarint.exec_faults (h : ReadsVarint N i f) (hrun : s.Running) (hN : 0 < maxVarintBytes N)
    (hmore : Continues s.ib s.rc.pos.toNat n) (hin : n = 0 ∨ s.rc.pos.toNat + n ≤ s.rc.lim.toNat) :
    (n < maxVarintBytes N → s.rc.lim.toNat < s.rc.pos.toNat + n + 1 →
      exec i s = .next (enterFault .readPastEnd (encode i) s)) ∧
    (n = maxVarintBytes N → exec i s = .next (enterFault .varintUnterminated (encode i) s)) ∧
    (n + 1 = maxVarintBytes N → s.rc.pos.toNat + maxVarintBytes N ≤ s.rc.lim.toNat →
      (s.ib.read (s.rc.pos.toNat + n)).toNat < 128 →
      2 ^ (N - 7 * (maxVarintBytes N - 1)) ≤ (s.ib.read (s.rc.pos.toNat + n)).toNat →
      exec i s = .next (enterFault .varintExcess (encode i) s)) := by
  refine ⟨fun hshort hend => ?past, fun hall => ?unterminated, fun hlast hroom hend hexcess => ?excess⟩
  case past => exact h.exec_of_error hrun (readVarint_readPastEnd hmore hin hshort hend)
  case unterminated =>
    exact h.exec_of_error hrun (readVarint_varintUnterminated hmore (by omega) (by omega) hall)
  case excess =>
    rw [← hlast] at hroom hexcess
    exact h.exec_of_error hrun (readVarint_varintExcess hmore hroom hlast hend hexcess)

end VarintCommands

/-- The signed number of a zigzag value that fits its width, in `R` (rules R14, R101). -/
theorem sext64_unzigzag_ofNat {n x : Nat} (hn : 0 < n) (h : x < 2 ^ n) :
    sext64 (unzigzag (BitVec.ofNat n x)) = BitVec.ofInt 64 (unzigzagInt x) := by
  rw [sext64_unzigzag hn, BitVec.toNat_ofNat, Nat.mod_eq_of_lt h]

/-! ### The pack commands (rules R187, R188) -/

/-- `RPACK32` and `RPACK64`, each within its own widths, take the packed bytes and fill the lanes alike. -/
theorem exec_rpack {i : Instr} {width count : Byte} {arg : DWord} (hcount : count.toNat ≤ 128)
    (hi : (i = .rpack32 width count arg ∧ width.toNat ≤ 32) ∨ (i = .rpack64 width count arg ∧ width.toNat ≤ 64))
    (s : State) :
    i.wf = true ∧ exec i s = command i s (takeRC s (bytesFor (count.toNat * width.toNat)) >>= fun x =>
      .ok (x.2.setV (setLanes s.v 0 ((unpack x.1 width.toNat count.toNat).map (BitVec.ofNat 64))))) := by
  rcases hi with ⟨rfl, hwidth⟩ | ⟨rfl, hwidth⟩
  · exact ⟨decide_eq_true ⟨hwidth, hcount⟩, rfl⟩
  · exact ⟨decide_eq_true ⟨hwidth, hcount⟩, rfl⟩

/-! ### The statements -/

/-- Settles O33: the loop read turn by turn, for each width's most bytes and for each command's use of the value. -/
theorem varintReadResults : Obligations.VarintReadResults := by
  refine ⟨fun arg s n hrun hvar hin => ⟨fun hfits => ?_, fun hfits => ?_⟩,
    fun i s n hrun hop hmore hin => ?_⟩
  · have hfits32 : VarintFits 32 s.ib s.rc.pos.toNat n := hfits.imp id fun ⟨h, hb⟩ => ⟨h, h ▸ hb⟩
    have hlt := groupSum_lt_of_fits hvar.1 hfits32
    exact ⟨(readsVarint_rvar32 arg).exec_of_varintAt hrun hvar hin hfits32 (zext64_ofNat hlt),
      (readsVarint_rzz32 arg).exec_of_varintAt hrun hvar hin hfits32 (sext64_unzigzag_ofNat (by decide) hlt)⟩
  · have hfits64 : VarintFits 64 s.ib s.rc.pos.toNat n := hfits.imp id fun ⟨h, hb⟩ => ⟨h, h ▸ hb⟩
    have hlt := groupSum_lt_of_fits hvar.1 hfits64
    exact ⟨(readsVarint_rvar64 arg).exec_of_varintAt hrun hvar hin hfits64 rfl,
      (readsVarint_rzz64 arg).exec_of_varintAt hrun hvar hin hfits64
        ((sext64_dword _).symm.trans (sext64_unzigzag_ofNat (by decide) hlt))⟩
  · obtain ⟨arg, rfl | rfl | rfl | rfl⟩ := varint_read_of_opcNo hop
    · exact (readsVarint_rvar32 arg).exec_faults hrun (by decide) hmore hin
    · exact (readsVarint_rvar64 arg).exec_faults hrun (by decide) hmore hin
    · exact (readsVarint_rzz32 arg).exec_faults hrun (by decide) hmore hin
    · exact (readsVarint_rzz64 arg).exec_faults hrun (by decide) hmore hin

/-- Settles O32: the bytes taken, as a little-endian number; four of them stay below `2^32`. -/
theorem fixedWidthReadResults : Obligations.FixedWidthReadResults := by
  intro arg s hrun
  have hlt : leVal (s.ib.readBytes s.rc.pos.toNat 4) < 2 ^ 32 := by
    simpa using leVal_lt (s.ib.readBytes s.rc.pos.toNat 4)
  have hval32 := (zext64_ofNat hlt).trans (congrArg (BitVec.ofNat 64) (leVal_readBytes_four s.ib s.rc.pos.toNat))
  have hval64 := congrArg (BitVec.ofNat 64) (leVal_readBytes_eight s.ib s.rc.pos.toNat)
  obtain ⟨hread32, hpast32⟩ := exec_of_takeRC_setR (i := .rfix32 arg) (n := 4)
    (f := fun b => zext64 (BitVec.ofNat 32 (leVal b))) hrun rfl rfl hval32
  obtain ⟨hread64, hpast64⟩ := exec_of_takeRC_setR (i := .rfix64 arg) (n := 8)
    (f := fun b => BitVec.ofNat 64 (leVal b)) hrun rfl rfl hval64
  exact ⟨hread32, hpast32, hread64, hpast64⟩

/-- Settles O34: the packed bytes are taken and their stream cut into the lanes below the count. -/
theorem packReadResults : Obligations.PackReadResults := by
  intro width count arg s i hrun hcount hi
  obtain ⟨hwf, hexec⟩ := exec_rpack hcount hi s
  obtain ⟨hread, hpast⟩ := exec_of_takeRC hrun hwf hexec
  exact ⟨fun hin => ⟨_, hread hin, fun _ => getElem_setLanes_unpack s.v _ _ _⟩, hpast⟩

/-- Settles O35: the one byte taken, its booleans laid out from bit 0. -/
theorem booleanReadResult : Obligations.BooleanReadResult := by
  intro arg s hrun
  obtain ⟨hread, hpast⟩ := exec_of_takeRC_setR (i := .rpbool arg) (n := 1)
    (f := fun b => boolsResult (unpbool (b.headD 0))) hrun rfl rfl rfl
  exact ⟨fun hin => ⟨_, hread hin, boolsResult_unpbool_getLsbD (s.ib.read s.rc.pos.toNat)⟩, hpast⟩

end Sys2Proof.Machine
end

section
/-! PROOFS. What each command of the boolean codec does (rules R202 to R209): the exact next state, or the fault and
nothing else; and the round trip of the codec (rule R210), read off those results. -/

namespace Sys2Proof.Machine

/-! ### The octet being filled (rule R202) -/

/-- The octet of unit 0 with one more boolean, the first in the top bit. -/
def octetWith (e : BoolEnc) (b : Bool) : Byte := e.bacc ||| ((BitVec.ofBool b).setWidth 8 <<< (7 - e.bcnt))

theorem octetWith_getLsbD {e : BoolEnc} (hcount : e.bcnt ≤ 7) (b : Bool) {k : Nat} (hk : k < 8) :
    (octetWith e b).getLsbD k = (e.bacc.getLsbD k || (decide (k + e.bcnt = 7) && b)) := by
  have hplace : 7 - e.bcnt ≤ k ∧ k - (7 - e.bcnt) = 0 ↔ k + e.bcnt = 7 := by omega
  rw [octetWith, BitVec.getLsbD_or, BitVec.getLsbD_shiftLeft, BitVec.getLsbD_setWidth, BitVec.getLsbD_ofBool]
  simp only [← hplace, Bool.decide_and]
  by_cases hle : 7 - e.bcnt ≤ k
  · simp [hk, hle, show k - (7 - e.bcnt) < 8 by omega, show ¬k < 7 - e.bcnt by omega]
  · simp [hle, show k < 7 - e.bcnt by omega]

theorem boolEncode_partial {cap : Nat} {e : BoolEnc} (h : e.bcnt < 7) (b : Bool) :
    boolEncode cap e b = .ok { e with bacc := octetWith e b, bcnt := e.bcnt + 1 } :=
  if_neg (by omega)

theorem boolEncode_eighth {cap : Nat} {e : BoolEnc} (h : e.bcnt = 7) (b : Bool) :
    boolEncode cap e b = append cap e.st [octetWith e b] >>= fun st =>
      .ok { e with st := st, bacc := 0, bcnt := 0 } :=
  if_pos (by omega)

/-- What `FIN.0` stages behind the full octets: the partial one, when there is one (rule R203). -/
theorem boolFinish_eq {cap : Nat} {e : BoolEnc} (hempty : e.bcnt = 0 → e.bacc = 0) (hfit : e.st.length ≤ cap)
    (hfin : e.fin = false) :
    boolFinish cap e = append cap e.st (if e.bcnt = 0 then [] else [e.bacc]) >>= fun st => .ok ⟨st, true, 0, 0⟩ := by
  unfold boolFinish
  rw [if_neg (by simp [hfin])]
  by_cases h0 : e.bcnt = 0
  · have happ : append cap e.st [] = .ok e.st := append_eq_ok.2 ⟨hfit, (List.append_nil _).symm⟩
    rw [if_neg (by omega), if_pos h0, happ, h0, hempty h0]
    rfl
  · rw [if_pos (by omega), if_neg h0]

/-- An octet with no boolean in it is 0 (rule R38 item 3). -/
theorem BoolEnc.Inv.bacc_eq_zero {p : Config.Params} {e : BoolEnc} (h : e.Inv p) (h0 : e.bcnt = 0) : e.bacc = 0 :=
  BitVec.eq_of_getLsbD_eq fun k hk => by rw [h.unused k (by omega)]; simp

/-! ### The commands -/

/-- A boolean result as the number the statements write (rule R101). -/
theorem boolResult_eq (b : Bool) : boolResult b = BitVec.ofNat 64 (if b then 1 else 0) := by cases b <;> rfl

/-- Settles O41: the octet's bits, and the branch of the encode step the count selects. -/
theorem booleanEncodeResult : Obligations.BooleanEncodeResult := by
  intro arg s hrun
  refine ⟨fun hfin => command_error hrun rfl (if_pos hfin), fun hfin => ?_⟩
  have hbody : exec (.enc0 arg) s = command (.enc0 arg) s
      (boolEncode s.params.stcap s.e0 (argBool arg) >>= fun e => .ok (s.setE0 e)) :=
    congrArg (command (.enc0 arg) s) (if_neg (by simp [hfin]))
  by_cases hcount : s.e0.bcnt ≤ 7
  · refine ⟨octetWith s.e0 (argBool arg), fun k hk => octetWith_getLsbD hcount _ hk, fun hlt => ?_,
      fun heq hroom => ?_, fun heq hfull => ?_⟩ <;> rw [hbody]
    · rw [boolEncode_partial hlt, hfin]
      exact command_ok hrun rfl rfl
    · have happ : append s.params.stcap s.e0.st [octetWith s.e0 (argBool arg)] = .ok _ :=
        append_eq_ok.2 ⟨hroom, rfl⟩
      rw [boolEncode_eighth heq, happ, hfin]
      exact command_ok hrun rfl rfl
    · have happ : append s.params.stcap s.e0.st [octetWith s.e0 (argBool arg)] = .error .capacity :=
        append_eq_error.2 ⟨Nat.lt_succ_of_le hfull, rfl⟩
      rw [boolEncode_eighth heq]
      exact command_error hrun rfl (bind_eq_error.2 (.inl (bind_eq_error.2 (.inl happ))))
  · refine ⟨s.e0.bacc, fun k _ => ?_, fun hlt => absurd hlt (by omega), fun heq => absurd heq (by omega),
      fun heq => absurd heq (by omega)⟩
    simp [show k + s.e0.bcnt ≠ 7 by omega]

/-- `FIN.0` on a finished unit does nothing (rule R203). -/
theorem exec_fin0_of_finished {arg : DWord} {s : State} (hrun : s.Running) (hfin : s.e0.fin = true) :
    exec (.fin0 arg) s = .next s :=
  command_ok hrun rfl (bind_eq_ok.2 ⟨s.e0, if_pos hfin, rfl⟩)

/-- Settles O42: a unit within the invariant stages its partial octet, if it has one, or raises `CAPACITY`. -/
theorem booleanFinishResult : Obligations.BooleanFinishResult := by
  intro arg s hrun hinv st
  refine ⟨exec_fin0_of_finished hrun, fun hfin hfits => ?_, fun hfin hfull => ?_⟩
  · have hbody : boolFinish s.params.stcap s.e0 = .ok ⟨st, true, 0, 0⟩ := by
      rw [boolFinish_eq hinv.bacc_eq_zero hinv.staged hfin]
      exact bind_eq_ok.2 ⟨st, append_eq_ok.2 ⟨List.length_append ▸ hfits, rfl⟩, rfl⟩
    refine ⟨command_ok hrun rfl (bind_eq_ok.2 ⟨_, hbody, rfl⟩), fun hroom => ?_⟩
    exact command_ok hrun rfl (bind_eq_ok.2 ⟨_, hbody, appendOB_eq_ok.2 ⟨hroom, rfl⟩⟩)
  · have hbody : boolFinish s.params.stcap s.e0 = .error .capacity := by
      rw [boolFinish_eq hinv.bacc_eq_zero hinv.staged hfin]
      exact bind_eq_error.2 (.inl (append_eq_error.2 ⟨List.length_append ▸ hfull, rfl⟩))
    exact ⟨command_error hrun rfl (bind_eq_error.2 (.inl hbody)), command_error hrun rfl (bind_eq_error.2 (.inl hbody))⟩

/-- Settles O44: the byte at hand, the byte taken, or the fault of taking it. -/
theorem booleanDecodeResult : Obligations.BooleanDecodeResult := by
  intro arg s hrun y
  have hbody (hact : s.d0.act = true) : exec (.dec0 arg) s = command (.dec0 arg) s
      (boolDecode s.ib s.d0 >>= fun x => .ok ((s.setD0 x.2).setR (boolResult x.1))) :=
    congrArg (command (.dec0 arg) s) (if_pos hact)
  refine ⟨fun hact => command_error hrun rfl (if_neg (by simp [hact])), fun hact hrem => ?_,
    fun hact hrem hin => ?_, fun hact hrem hout => ?_⟩ <;> rw [hbody hact]
  · have hdec : boolDecode s.ib s.d0 = .ok (s.d0.byte.getLsbD (s.d0.brem - 1), { s.d0 with brem := s.d0.brem - 1 }) :=
      if_neg (by omega)
    rw [hdec, ← boolResult_eq]
    exact command_ok hrun rfl rfl
  · have hdec : boolDecode s.ib s.d0 = .ok (y.getLsbD 7, ⟨true, s.d0.csr.advance 1, y, 7⟩) := by
      rw [boolDecode, if_pos hrem, ← hact]
      exact bind_eq_ok.2 ⟨_, takeByte_eq_ok.2 ⟨hin, rfl⟩, rfl⟩
    rw [hdec, ← boolResult_eq]
    exact command_ok hrun rfl rfl
  · have hdec : boolDecode s.ib s.d0 = .error .readPastEnd := by
      rw [boolDecode, if_pos hrem]
      exact bind_eq_error.2 (.inl (takeByte_eq_error.2 ⟨hout, rfl⟩))
    exact command_error hrun rfl (bind_eq_error.2 (.inl hdec))

end Sys2Proof.Machine
end

section
/-! PROOFS. The round trip of the boolean codec through the commands (rule R210): the encoder keeps the booleans given
so far eight to a byte, and the decoder reads the bits of those bytes one by one. -/

namespace Sys2Proof.Machine

/-! ### Runs of commands -/

/-- A run goes on behind a command that completes. -/
theorem runCommands_cons {i : Instr} {is : List Instr} {s t : State} (h : exec i s = .next t) (ht : t.Running) :
    runCommands (i :: is) s = (runCommands is t).map fun x => (t.r :: x.1, x.2) := by
  rw [runCommands, h]
  exact if_neg (by simp [ht])

/-! ### Booleans eight to a byte -/

/-- Bit `k` of a byte string, counted from the top bit of the first byte. -/
def bitFromTop (b : Bytes) (k : Nat) : Bool := (b.getD (k / 8) 0).getLsbD (7 - k % 8)

/-- The bytes hold the booleans eight to a byte from the top, missing ones as 0 (rule R210). -/
def HoldsBools (b : Bytes) (l : List Bool) : Prop := ∀ k, k < 8 * b.length → bitFromTop b k = l.getD k false

theorem bitFromTop_append_of_lt {b c : Bytes} {k : Nat} (hk : k < 8 * b.length) :
    bitFromTop (b ++ c) k = bitFromTop b k := by
  rw [bitFromTop, List.getD_append _ _ _ _ (by omega), bitFromTop]

theorem bitFromTop_concat_of_le {b : Bytes} {y : Byte} {k : Nat} (hlo : 8 * b.length ≤ k)
    (hhi : k < 8 * (b.length + 1)) :
    bitFromTop (b ++ [y]) k = y.getLsbD (7 - k % 8) := by
  rw [bitFromTop, List.getD_append_right _ _ _ _ (by omega), show k / 8 - b.length = 0 by omega, List.getD_cons_zero]

theorem HoldsBools.left {b c : Bytes} {l : List Bool} (h : HoldsBools (b ++ c) l) : HoldsBools b l := fun k hk => by
  rw [← bitFromTop_append_of_lt hk]
  exact h k (by rw [List.length_append]; omega)

/-- One more byte holds what its bits and the bytes before it hold. -/
theorem holdsBools_concat {b : Bytes} {y : Byte} {l : List Bool} (hb : HoldsBools b l)
    (hy : ∀ j, j < 8 → y.getLsbD (7 - j) = l.getD (8 * b.length + j) false) : HoldsBools (b ++ [y]) l := by
  intro k hk
  rw [List.length_append, List.length_singleton] at hk
  by_cases hlt : k < 8 * b.length
  · rw [bitFromTop_append_of_lt hlt, hb k hlt]
  · rw [bitFromTop_concat_of_le (by omega) hk, hy _ (by omega), show 8 * b.length + k % 8 = k by omega]

theorem HoldsBools.last_getLsbD {b : Bytes} {y : Byte} {l : List Bool} (h : HoldsBools (b ++ [y]) l) {j : Nat}
    (hj : j < 8) : y.getLsbD (7 - j) = l.getD (8 * b.length + j) false := by
  rw [← h _ (by rw [List.length_append, List.length_singleton]; omega),
    bitFromTop_concat_of_le (by omega) (by omega), show (8 * b.length + j) % 8 = j by omega]

theorem getD_concat_false (l : List Bool) (b : Bool) (k : Nat) :
    (l ++ [b]).getD k false = (l.getD k false || (decide (k = l.length) && b)) := by
  rcases lt_trichotomy k l.length with hlt | rfl | hgt
  · rw [List.getD_append _ _ _ _ hlt]
    simp [hlt.ne]
  · simp
  · rw [List.getD_eq_default _ _ (by simp; omega), List.getD_eq_default _ _ hgt.le]
    simp [hgt.ne']

/-! ### The encoder (rules R202, R203) -/

/-- Unit 0 has been given the booleans `l` since its reset: the staged bytes and the octet hold them. -/
structure BoolEnc.Stages (e : BoolEnc) (l : List Bool) : Prop where
  unfinished : e.fin = false
  count : 8 * e.st.length + e.bcnt = l.length
  octet : e.bcnt < 8
  bits : HoldsBools (e.st ++ [e.bacc]) l

theorem stages_nil : BoolEnc.Stages {} [] :=
  ⟨rfl, rfl, by decide, holdsBools_concat (fun k hk => absurd hk (Nat.not_lt_zero k)) fun j _ => by simp⟩

/-- The invariant of rule R38, for a unit whose booleans fit the staging buffer. -/
theorem BoolEnc.Stages.inv {p : Config.Params} {e : BoolEnc} {l : List Bool} (h : e.Stages l)
    (hfits : l.length ≤ 8 * p.stcap) : e.Inv p := by
  obtain ⟨hfin, hcount, hoctet, hbits⟩ := h
  refine ⟨by omega, by omega, fun k hk => ?_, fun hdone => absurd hdone (by simp [hfin])⟩
  have hlast := hbits.last_getLsbD (show 7 - k < 8 by omega)
  rwa [show 7 - (7 - k) = k by omega, List.getD_eq_default _ _ (by omega)] at hlast

/-- The number a boolean is presented as (rule R101). -/
abbrev boolArg (b : Bool) : DWord := if b then 1 else 0

theorem boolArg_eq (b : Bool) : boolArg b = BitVec.ofNat 64 (if b then 1 else 0) := by cases b <;> rfl

theorem boolArg_getLsbD_zero (b : Bool) : (boolArg b).getLsbD 0 = b := by cases b <;> rfl

/-- `ENC.0` takes one boolean more, while the staging buffer has room for it (rule R202). -/
theorem exec_enc0_stages {s : State} {l : List Bool} {b : Bool} (hrun : s.Running) (h : s.e0.Stages l)
    (hfits : l.length < 8 * s.params.stcap) :
    ∃ e, exec (.enc0 (boolArg b)) s = .next (s.setE0 e) ∧ e.Stages (l ++ [b]) := by
  obtain ⟨hfin, hcount, hoctet, hbits⟩ := h
  obtain ⟨acc, hacc, hpartial, heighth, -⟩ := (booleanEncodeResult (boolArg b) s hrun).2 hfin
  have hlen : (l ++ [b]).length = l.length + 1 := List.length_append
  have hbits' : HoldsBools (s.e0.st ++ [acc]) (l ++ [b]) := by
    refine holdsBools_concat (fun k hk => ?_) fun j hj => ?_
    · rw [hbits.left k hk, List.getD_append _ _ _ _ (by omega)]
    · have hplace : 7 - j + s.e0.bcnt = 7 ↔ 8 * s.e0.st.length + j = l.length := by omega
      rw [hacc _ (by omega), boolArg_getLsbD_zero, getD_concat_false, ← hbits.last_getLsbD hj]
      simp only [hplace]
  by_cases hlt : s.e0.bcnt < 7
  · exact ⟨_, hpartial hlt, rfl, hlen ▸ congrArg (· + 1) hcount, Nat.succ_lt_succ hlt, hbits'⟩
  · have hfull : (s.e0.st ++ [acc]).length = s.e0.st.length + 1 := List.length_append
    refine ⟨_, heighth (by omega) (by omega), rfl, by simp only; omega, Nat.zero_lt_succ 7,
      holdsBools_concat hbits' fun j _ => ?_⟩
    rw [List.getD_eq_default _ _ (show _ ≤ 8 * (s.e0.st ++ [acc]).length + j by omega)]
    simp

/-- `FIN.0` leaves the booleans in as many bytes as they need (rule R203). -/
theorem exec_fin0_stages {s : State} {l : List Bool} (hrun : s.Running) (h : s.e0.Stages l)
    (hfits : l.length ≤ 8 * s.params.stcap) :
    ∃ st, exec (.fin0 0) s = .next (s.setE0 ⟨st, true, 0, 0⟩) ∧ st.length = (l.length + 7) / 8 ∧ HoldsBools st l := by
  obtain ⟨-, hfinish, -⟩ := booleanFinishResult 0 s hrun (h.inv hfits)
  obtain ⟨hfin, hcount, hoctet, hbits⟩ := h
  by_cases h0 : s.e0.bcnt = 0
  · rw [if_pos h0, List.append_nil] at hfinish
    exact ⟨_, (hfinish hfin (by omega)).1, by omega, hbits.left⟩
  · have hlen : (s.e0.st ++ [s.e0.bacc]).length = s.e0.st.length + 1 := List.length_append
    rw [if_neg h0] at hfinish
    exact ⟨_, (hfinish hfin (by omega)).1, by omega, hbits⟩

/-- The booleans still to come, and the finish, for a unit that has been given those before. -/
theorem runCommands_enc0_fin0 : ∀ {bs l : List Bool} {s : State}, s.Running → s.e0.Stages l →
    (l ++ bs).length ≤ 8 * s.params.stcap →
    ∃ rs st, runCommands (bs.map (fun b => .enc0 (boolArg b)) ++ [.fin0 0]) s =
        some (rs, s.setE0 ⟨st, true, 0, 0⟩) ∧ st.length = ((l ++ bs).length + 7) / 8 ∧ HoldsBools st (l ++ bs)
  | [], l, s, hrun, h, hfits => by
    rw [List.append_nil] at hfits ⊢
    obtain ⟨st, hexec, hst⟩ := exec_fin0_stages hrun h hfits
    exact ⟨_, st, runCommands_cons hexec hrun, hst⟩
  | b :: bs, l, s, hrun, h, hfits => by
    have hroom : l.length < 8 * s.params.stcap := by rw [List.length_append, List.length_cons] at hfits; omega
    obtain ⟨e, hexec, he⟩ := exec_enc0_stages (b := b) hrun h hroom
    rw [List.append_cons l b bs] at hfits ⊢
    obtain ⟨rs, st, hrest, hst⟩ := runCommands_enc0_fin0 (s := s.setE0 e) hrun he hfits
    refine ⟨(s.setE0 e).r :: rs, st, ?_, hst⟩
    rw [List.map_cons, List.cons_append, runCommands_cons hexec hrun, hrest]
    rfl

/-! ### The decoder (rules R208, R209) -/

theorem Memory.readBytes_getD (m : Memory) : ∀ (n a k : Nat), k < n → (m.readBytes a n).getD k 0 = m.read (a + k)
  | n + 1, a, 0, _ => rfl
  | n + 1, a, k + 1, hk => by
    rw [Memory.readBytes, List.getD_cons_succ, readBytes_getD m n (a + 1) k (by omega), Nat.add_right_comm,
      Nat.add_assoc]

/-- Decoder unit 0, built over the cursor `c`, has returned `k` booleans: the byte it took last is the one with the
rest of the octet. -/
structure BoolDec.Returned (d : BoolDec) (m : Memory) (c : Cursor) (k : Nat) : Prop where
  active : d.act = true
  cursor : d.csr = c.advance ((k + 7) / 8)
  rest : k + d.brem = 8 * ((k + 7) / 8)
  byte : 0 < d.brem → d.byte = m.read (c.pos.toNat + k / 8)

/-- `DEC.0` returns the next bit of the `n` bytes the decoder was built over (rule R209). -/
theorem exec_dec0_returned {s : State} {c : Cursor} {k n : Nat} (hrun : s.Running) (h : s.d0.Returned s.ib c k)
    (hk : k < 8 * n) (hin : c.pos.toNat + n ≤ c.lim.toNat) :
    ∃ d, exec (.dec0 0) s =
        .next ((s.setD0 d).setR (boolArg (bitFromTop (s.ib.readBytes c.pos.toNat n) k))) ∧
      d.Returned s.ib c (k + 1) := by
  obtain ⟨hact, hcursor, hrest, hbyte⟩ := h
  obtain ⟨-, hsame, hnew, -⟩ := booleanDecodeResult 0 s hrun
  have hbit : bitFromTop (s.ib.readBytes c.pos.toNat n) k = (s.ib.read (c.pos.toNat + k / 8)).getLsbD (7 - k % 8) := by
    rw [bitFromTop, Memory.readBytes_getD _ _ _ _ (by omega)]
  rw [hbit]
  by_cases hrem : 0 < s.d0.brem
  · have hexec := hsame hact hrem
    rw [hbyte hrem, show s.d0.brem - 1 = 7 - k % 8 by omega] at hexec
    refine ⟨{ s.d0 with brem := 7 - k % 8 }, by rw [boolArg_eq]; exact hexec, hact, ?_, ?_, fun hmore => ?_⟩
    · rw [show (k + 1 + 7) / 8 = (k + 7) / 8 by omega]; exact hcursor
    · show k + 1 + (7 - k % 8) = _
      omega
    · have hmore' : 0 < 7 - k % 8 := hmore
      rw [show (k + 1) / 8 = k / 8 by omega]; exact hbyte hrem
  · have hpos : s.d0.csr.pos.toNat = c.pos.toNat + k / 8 := by
      rw [hcursor, Cursor.advance_pos_toNat (.inr (by omega))]; omega
    have hlim : s.d0.csr.lim = c.lim := by rw [hcursor]
    have hexec := hnew hact (by omega) (by rw [hpos, hlim]; omega)
    rw [hpos] at hexec
    refine ⟨⟨true, s.d0.csr.advance 1, s.ib.read (c.pos.toNat + k / 8), 7⟩,
      by rw [boolArg_eq, show k % 8 = 0 by omega]; exact hexec, rfl, ?_, ?_, fun _ => ?_⟩
    · rw [hcursor, Cursor.advance_advance, show (k + 7) / 8 + 1 = (k + 1 + 7) / 8 by omega]
    · show k + 1 + 7 = _
      omega
    · rw [show (k + 1) / 8 = k / 8 by omega]

/-- A run of `DEC.0` returns the bits of the bytes, from the next one on. -/
theorem runCommands_dec0 {c : Cursor} {n : Nat} (hin : c.pos.toNat + n ≤ c.lim.toNat) : ∀ {bs : List Bool} {k : Nat}
    {s : State}, s.Running → s.d0.Returned s.ib c k → k + bs.length ≤ 8 * n →
    (∀ i, i < bs.length → bitFromTop (s.ib.readBytes c.pos.toNat n) (k + i) = bs.getD i false) →
    ∃ t, runCommands (bs.map fun _ => .dec0 0) s = some (bs.map boolArg, t)
  | [], _, s, _, _, _, _ => ⟨s, rfl⟩
  | b :: bs, k, s, hrun, h, hfits, hbits => by
    rw [List.length_cons] at hfits hbits
    obtain ⟨d, hexec, hd⟩ := exec_dec0_returned (n := n) hrun h (by omega) hin
    rw [show bitFromTop (s.ib.readBytes c.pos.toNat n) k = b from hbits 0 (by omega)] at hexec
    obtain ⟨t, hrest⟩ := runCommands_dec0 hin (bs := bs) (s := (s.setD0 d).setR (boolArg b)) hrun hd (by omega)
      fun i hi => by rw [Nat.add_right_comm]; exact hbits (i + 1) (by omega)
    refine ⟨t, ?_⟩
    rw [List.map_cons, runCommands_cons hexec hrun, hrest]
    rfl

/-! ### The statement -/

/-- Settles O45: the encoder keeps every boolean given, the finish stages them, the decoder reads the staged bits. -/
theorem booleanRoundTrip : Obligations.BooleanRoundTrip := by
  intro bs s hrun hfits num
  obtain ⟨rs, st, hencode, hlen, hbits⟩ := runCommands_enc0_fin0 (l := []) (s := s.setE0 {}) hrun stages_nil hfits
  have hreset : exec (.rst0 0) s = .next (s.setE0 {}) := command_ok hrun rfl rfl
  refine ⟨s.r :: rs, st, ?_, exec_fin0_of_finished (s := s.setE0 ⟨st, true, 0, 0⟩) hrun rfl, hlen, hbits,
    fun u hu hst hin => ?_⟩
  · rw [List.cons_append, runCommands_cons hreset hrun, hencode]
    rfl
  · have hinit : exec (.dinit0 0) u = .next (u.setD0 ⟨true, u.rc, 0, 0⟩) := command_ok hu rfl rfl
    have hreturned : BoolDec.Returned ⟨true, u.rc, 0, 0⟩ u.ib u.rc 0 :=
      ⟨rfl, (Cursor.advance_zero u.rc).symm, rfl, fun h => absurd h (Nat.lt_irrefl 0)⟩
    rw [List.nil_append] at hlen hbits
    obtain ⟨t, hdecode⟩ := runCommands_dec0 hin (bs := bs) (s := u.setD0 ⟨true, u.rc, 0, 0⟩) hu hreturned (by omega)
      fun i hi => by rw [Nat.zero_add, ← hbits i (by omega)]; exact congrArg (bitFromTop · i) hst
    refine ⟨t, ?_⟩
    rw [runCommands_cons hinit hu, hdecode]
    rfl

end Sys2Proof.Machine
end

section
/-! PROOFS. The lifecycle all units share: `FIN.u` and `WTO.u` (rule R201), `RST.u` and `SIZE.u` (rules R204, R205 and
their like), and the construction of a decoder (rules R208, R262, R324, R326). -/

namespace Sys2Proof.Machine

/-! ### `FIN.u` and `WTO.u` (rule R201) -/

/-- `fin` on a finished unit does nothing, and `wto` is `fin` followed by an append of the staged bytes to OB, all or
nothing. -/
def WtoIsFinThenAppend (s : State) (fin wto : Instr) (finished : Bool) (staged : State → Bytes) : Prop :=
  (finished = true → exec fin s = .next s ∧ AppendsToOB wto s (staged s)) ∧
  (∀ t, exec fin s = .next t → t.Running →
    (s.ob.length + (staged t).length ≤ s.params.obcap → exec wto s = .next { t with ob := s.ob ++ staged t }) ∧
    (s.params.obcap < s.ob.length + (staged t).length → exec wto s = .next (enterFault .capacity (encode wto) s))) ∧
  ∀ code, exec fin s = .next (enterFault code (encode fin) s) → exec wto s = .next (enterFault code (encode wto) s)

/-- A unit's two commands run the same finish `x`: `FIN.u` puts the unit back, `WTO.u` also appends the bytes `staged`
in it to OB. -/
structure FinishPair {ε : Type} (s : State) (fin wto : Instr) (x : Except FaultCode ε) (set : ε → State)
    (staged : State → Bytes) : Prop where
  finWf : fin.wf = true
  wtoWf : wto.wf = true
  execFin : exec fin s = command fin s (x >>= fun e => .ok (set e))
  execWto : exec wto s = command wto s (x >>= fun e => appendOB (set e) (staged (set e)))
  keeps : ∀ e, (set e).fault = s.fault ∧ (set e).ob = s.ob ∧ (set e).params = s.params

section
variable {ε : Type} {s : State} {fin wto : Instr} {x : Except FaultCode ε} {set : ε → State} {staged : State → Bytes}

/-- After a finish that completes, `WTO.u` appends to the OB of the state it leaves, which is the OB there was. -/
theorem FinishPair.appends (h : FinishPair s fin wto x set staged) (hrun : s.Running) {e : ε} (hx : x = .ok e) :
    (s.ob.length + (staged (set e)).length ≤ s.params.obcap →
      exec wto s = .next { set e with ob := s.ob ++ staged (set e) }) ∧
    (s.params.obcap < s.ob.length + (staged (set e)).length →
      exec wto s = .next (enterFault .capacity (encode wto) s)) := by
  obtain ⟨-, hob, hparams⟩ := h.keeps e
  rw [h.execWto, ← hob, ← hparams]
  refine ⟨fun hfits => command_ok hrun h.wtoWf ?_, fun hfull => command_error hrun h.wtoWf ?_⟩
  · exact bind_eq_ok.2 ⟨e, hx, appendOB_eq_ok.2 ⟨hfits, rfl⟩⟩
  · exact bind_eq_error.2 (.inr ⟨e, hx, appendOB_eq_error.2 ⟨hfull, rfl⟩⟩)

/-- A fault of the finish is the fault of both commands. -/
theorem FinishPair.faults (h : FinishPair s fin wto x set staged) (hrun : s.Running) {c : FaultCode}
    (hx : x = .error c) : exec fin s = .next (enterFault c (encode fin) s) ∧
      exec wto s = .next (enterFault c (encode wto) s) := by
  rw [h.execFin, h.execWto]
  exact ⟨command_error hrun h.finWf (bind_eq_error.2 (.inl hx)), command_error hrun h.wtoWf (bind_eq_error.2 (.inl hx))⟩

/-- Rule R201 for a unit whose finish `x` answers the unit itself once it is finished. -/
theorem FinishPair.wtoIsFinThenAppend {finished : Bool} {e₀ : ε} (h : FinishPair s fin wto x set staged)
    (hrun : s.Running) (hdone : finished = true → x = .ok e₀) (hset : set e₀ = s) :
    WtoIsFinThenAppend s fin wto finished staged := by
  have hfin {e : ε} (hx : x = .ok e) : exec fin s = .next (set e) :=
    h.execFin.trans (command_ok hrun h.finWf (bind_eq_ok.2 ⟨e, hx, rfl⟩))
  refine ⟨fun hfinished => ?_, fun t ht htrun => ?_, fun code hcode => ?_⟩
  · have hx := hdone hfinished
    have happ := h.appends hrun hx
    rw [hset] at happ
    exact ⟨by rw [hfin hx, hset], happ⟩
  · cases hx : x with
    | ok e =>
      obtain rfl : set e = t := by injection (hfin hx).symm.trans ht
      exact h.appends hrun hx
    | error c =>
      obtain rfl : enterFault c (encode fin) s = t := by injection (h.faults hrun hx).1.symm.trans ht
      cases htrun
  · cases hx : x with
    | ok e =>
      have hfault : set e = enterFault code (encode fin) s := by injection (hfin hx).symm.trans hcode
      have hkept := (h.keeps e).1
      rw [hfault, hrun] at hkept
      cases hkept
    | error c =>
      obtain ⟨hfinFault, hwtoFault⟩ := h.faults hrun hx
      have hsame : enterFault c (encode fin) s = enterFault code (encode fin) s := by
        injection hfinFault.symm.trans hcode
      have hnum : faultNumber c = faultNumber code := congrArg State.fcode hsame
      rw [hwtoFault, enterFault, hnum, enterFault]

end

/-- Settles O38: the two commands of every unit run the same finish, which answers a finished unit as it is. -/
theorem finishIsIdempotentAndWtoAppends : Obligations.FinishIsIdempotentAndWtoAppends := by
  intro arg s hrun
  have hpair0 : FinishPair s (.fin0 arg) (.wto0 arg) (boolFinish s.params.stcap s.e0) s.setE0 (·.e0.st) :=
    ⟨rfl, rfl, rfl, rfl, fun _ => ⟨rfl, rfl, rfl⟩⟩
  have hpair1 : FinishPair s (.fin1 arg) (.wto1 arg) (hybridFinish s.params s.e1) s.setE1 (·.e1.st) :=
    ⟨rfl, rfl, rfl, rfl, fun _ => ⟨rfl, rfl, rfl⟩⟩
  have hpair2 : FinishPair s (.fin2 arg) (.wto2 arg) (selfUnitFinish s.params false s.e2) s.setE2 (·.e2.hyb.st) :=
    ⟨rfl, rfl, rfl, rfl, fun _ => ⟨rfl, rfl, rfl⟩⟩
  have hpair3 : FinishPair s (.fin3 arg) (.wto3 arg) (selfUnitFinish s.params true s.e3) s.setE3 (·.e3.hyb.st) :=
    ⟨rfl, rfl, rfl, rfl, fun _ => ⟨rfl, rfl, rfl⟩⟩
  have hpair4 : FinishPair s (.fin4 arg) (.wto4 arg) (deltaFinish s.params.stcap s.e4) s.setE4 (·.e4.st) :=
    ⟨rfl, rfl, rfl, rfl, fun _ => ⟨rfl, rfl, rfl⟩⟩
  have hpair5 : FinishPair s (.fin5 arg) (.wto5 arg) (deltaFinish s.params.stcap s.e5) s.setE5 (·.e5.st) :=
    ⟨rfl, rfl, rfl, rfl, fun _ => ⟨rfl, rfl, rfl⟩⟩
  exact ⟨hpair0.wtoIsFinThenAppend hrun (fun h => if_pos h) rfl, hpair1.wtoIsFinThenAppend hrun (fun h => if_pos h) rfl,
    hpair2.wtoIsFinThenAppend hrun (fun h => if_pos h) rfl, hpair3.wtoIsFinThenAppend hrun (fun h => if_pos h) rfl,
    hpair4.wtoIsFinThenAppend hrun (fun h => if_pos h) rfl, hpair5.wtoIsFinThenAppend hrun (fun h => if_pos h) rfl⟩

/-! ### `RST.u`, `SIZE.u` and the construction of a decoder -/

/-- `SIZE.2` and `SIZE.3` before the finish: nothing is staged yet (rules R240, R246). -/
theorem SelfEnc.Inv.st_eq_nil {p : Config.Params} {u : SelfEnc} (h : u.Inv p) (hfin : u.hyb.fin = false) :
    u.hyb.st = [] := (h.idle hfin).1

/-- Settles O39: each command's body has one answer. -/
theorem resetAndSizeResults : Obligations.ResetAndSizeResults := by
  intro arg s hrun
  refine ⟨?rst0, fun width hwidth => ?rst1, ?rst2, ?rst3, ?rst4, ?rst5, ?size0, ?size1, ?size2, ?size3, ?size4, ?size5,
    fun hinv hfin => ?idle2, fun hinv hfin => ?idle3⟩
  case rst1 =>
    have hwf : (Instr.rst1 width arg).wf = true := decide_eq_true hwidth
    exact command_ok hrun hwf rfl
  case idle2 => exact command_setR hrun rfl (by rw [hinv.st_eq_nil hfin]; rfl)
  case idle3 => exact command_setR hrun rfl (by rw [hinv.st_eq_nil hfin]; rfl)
  all_goals exact command_ok hrun rfl rfl

/-- Settles O43: each construction has one answer. -/
theorem decoderConstruction : Obligations.DecoderConstruction := by
  intro arg s hrun
  refine ⟨command_ok hrun rfl rfl, fun width hwidth => ?dinit1, command_ok hrun rfl rfl, command_ok hrun rfl rfl⟩
  have hwf : (Instr.dinit1 width arg).wf = true := decide_eq_true hwidth
  exact command_ok hrun hwf rfl

end Sys2Proof.Machine
end

section
/-! PROOFS. The estimates against the finish (rules R206, R226, R294, R300): exact for units 0 and 1, and for units 4
and 5 a bound on the block the finish stages. -/

namespace Sys2Proof.Machine

/-- A command that leaves the block running has had its effect. -/
theorem effect_of_running {i : Instr} {s t : State} (h : exec i s = .next t) (hrun : s.Running) (ht : t.Running) :
    Effect i s t := by
  rcases exec_ends h with ⟨hfault, -⟩ | ⟨-, code, rfl⟩ | ⟨-, -, heff⟩
  · rw [hrun] at hfault; cases hfault
  · cases ht
  · exact heff

/-! ### Unit 0 (rule R206) -/

theorem boolFinish_length {p : Config.Params} {e e' : BoolEnc} (hinv : e.Inv p) (h : boolFinish p.stcap e = .ok e') :
    boolEst e = e'.st.length := by
  rw [boolEst]
  cases hfin : e.fin with
  | true =>
    obtain rfl : e = e' := by rw [boolFinish, if_pos hfin] at h; injection h
    rw [hinv.finished hfin, if_neg (Nat.lt_irrefl 0), Nat.add_zero]
  | false =>
    rw [boolFinish_eq hinv.bacc_eq_zero hinv.staged hfin] at h
    obtain ⟨st, hst, h⟩ := bind_eq_ok.1 h
    obtain ⟨-, rfl⟩ := append_eq_ok.1 hst
    injection h with h
    subst h
    rw [List.length_append]
    by_cases h0 : e.bcnt = 0
    · simp [h0]
    · rw [if_neg h0, if_pos (Nat.pos_of_ne_zero h0), List.length_singleton]

/-! ### Unit 1 (rule R226) -/

theorem flushPacked_st {p : Config.Params} {e e' : HybridEnc} (h : flushPacked p e = .ok e') :
    e'.st = e.st ++ packedRunBytes e := by
  rcases flushPacked_eq_ok.1 h with ⟨h0, rfl⟩ | ⟨hpos, -, rfl⟩
  · rw [packedRunBytes, if_pos h0, List.append_nil]
  · rw [packedRunBytes, if_neg (by omega), List.append_assoc]

theorem packedRunBytes_length {e : HybridEnc} (h : e.pr.length = e.noct * e.wid) :
    (packedRunBytes e).length = if 0 < e.noct then varlen ((e.noct <<< 1) ||| 1) + e.noct * e.wid else 0 := by
  by_cases h0 : e.noct = 0
  · simp [packedRunBytes, h0]
  · rw [packedRunBytes, if_neg h0, if_pos (Nat.pos_of_ne_zero h0), List.length_append, varint_length, h]

theorem rleRunBytes_length (e : HybridEnc) : (rleRunBytes e).length = varlen (e.rn <<< 1) + bytesFor e.wid := by
  rw [rleRunBytes, List.length_append, varint_length, pack_length, List.length_singleton, Nat.one_mul, bytesFor]

/-- Repeats that fill the octuplet exactly pack it into the pending run (rules R222, R229). -/
theorem bufferRepeat_fills {p : Config.Params} {v : Word} : ∀ {n : Nat} {e e' : HybridEnc},
    bufferRepeat p v (n + 1) e = .ok e' → e.oct.length + (n + 1) = 8 →
    e' = { e with pr := e.pr ++ pack ((e.oct ++ List.replicate (n + 1) v).map BitVec.toNat) e.wid, noct := e.noct + 1,
                  oct := [] }
  | 0, e, e', h, hlen => by
    obtain ⟨e₁, hbuf, h⟩ := (bind_eq_ok (x := bufferValue p e v)).1 h
    obtain rfl : e₁ = e' := by injection h
    rcases bufferValue_eq_ok.1 hbuf with ⟨hne, -⟩ | ⟨-, -, he⟩
    · omega
    · exact he
  | n + 1, e, e', h, hlen => by
    obtain ⟨e₁, hbuf, h⟩ := (bind_eq_ok (x := bufferValue p e v)).1 h
    rcases bufferValue_eq_ok.1 hbuf with ⟨-, rfl⟩ | ⟨hlast, -, -⟩
    · have hrest := bufferRepeat_fills h (by rw [List.length_append, List.length_singleton]; omega)
      rw [hrest, List.append_assoc, List.singleton_append, ← List.replicate_succ]
    · omega

/-- The engine's estimate is what its finish stages (rules R226, R229). -/
theorem finish1_length {p : Config.Params} {e e' : HybridEnc} (hinv : e.Inv p) (h : finish1 p e = .ok e') :
    engineEst e = e'.st.length := by
  unfold finish1 at h
  by_cases hoct : e.oct = []
  · have hpacked := packedRunBytes_length hinv.pending
    rw [if_neg (by simp [hoct])] at h
    simp only [engineEst, hoct, if_true, Nat.add_zero, ← hpacked]
    by_cases hrn : 0 < e.rn
    · have hempty : e.noct = 0 → e.pr = [] := fun h0 =>
        List.eq_nil_of_length_eq_zero (by rw [hinv.pending, h0, Nat.zero_mul])
      rw [if_pos hrn] at h ⊢
      obtain ⟨-, rfl⟩ := (flushRLE_eq_ok hempty).1 h
      rw [List.length_append, List.length_append, rleRunBytes_length]
    · rw [if_neg hrn] at h ⊢
      rw [flushPacked_st h, List.length_append, Nat.add_zero]
  · have hpartial := hinv.partialOct
    obtain ⟨n, hn⟩ : ∃ n, 8 - e.oct.length = n + 1 := ⟨7 - e.oct.length, by omega⟩
    have hlen : e.oct.length + (n + 1) = 8 := by omega
    rw [if_pos hoct, hn] at h
    obtain ⟨e₁, hpad, h⟩ := bind_eq_ok.1 h
    obtain rfl := bufferRepeat_fills hpad hlen
    rw [flushPacked_st h, List.length_append, packedRunBytes_length]
    · simp [engineEst, hoct, hinv.exclusive hoct]
    · rw [List.length_append, pack_length, List.length_map, List.length_append, List.length_replicate, hlen,
        hinv.pending]
      simp only [Nat.add_mul]
      omega

theorem hybridFinish_length {p : Config.Params} {e e' : HybridEnc} (hinv : e.Inv p) (h : hybridFinish p e = .ok e') :
    engineEst e = e'.st.length := by
  unfold hybridFinish at h
  split at h
  · next hfin =>
    obtain ⟨hrn, hoct, hnoct⟩ := hinv.finished hfin
    injection h with h
    subst h
    simp [engineEst, hrn, hoct, hnoct]
  · obtain ⟨e₁, hfinish, h⟩ := bind_eq_ok.1 h
    injection h with h
    subst h
    exact finish1_length (e' := e₁) hinv hfinish

/-! ### The deltas of a block (rules R282, R286) -/

theorem deltas_length : ∀ vals : List Int, (deltas vals).length = vals.length - 1
  | [] => rfl
  | [_] => rfl
  | a :: b :: t => by rw [deltas, List.length_cons, deltas_length (b :: t)]; rfl

/-- Values of a range differ by less than its size. -/
theorem deltas_bounds {B : Int} : ∀ {vals : List Int}, (∀ v ∈ vals, -B ≤ v ∧ v < B) →
    ∀ d ∈ deltas vals, -(2 * B) < d ∧ d < 2 * B
  | a :: b :: t, h, d, hd => by
    rw [deltas, List.mem_cons] at hd
    rcases hd with rfl | hd
    · have ha := h a (by simp)
      have hb := h b (by simp)
      omega
    · exact deltas_bounds (fun v hv => h v (List.mem_cons_of_mem a hv)) d hd

theorem lt_minDelta {B : Int} (hB : B < 0) {ds : List Int} (h : ∀ d ∈ ds, B < d) : B < minDelta ds := by
  cases ds with
  | nil => exact hB
  | cons d ds =>
    obtain ⟨hd, hds⟩ := List.forall_mem_cons.1 h
    exact List.foldlRecOn (motive := (B < ·)) ds min hd fun _ ha x hx => lt_min ha (hds x hx)

theorem storedRels_length (vals : List Int) : (storedRels vals).length = vals.length - 1 := by
  rw [storedRels, List.length_map, deltas_length]

theorem storedRels_lt (vals : List Int) : ∀ x ∈ storedRels vals, x < 2 ^ 64 := by
  intro x hx
  obtain ⟨d, -, rfl⟩ := List.mem_map.1 hx
  exact Nat.mod_lt _ (by decide)

/-- Relative deltas of values of `k + 1` bits fit `k + 2` bits. -/
theorem storedRels_lt_of_bounds {k : Nat} {vals : List Int} (h : ∀ v ∈ vals, -2 ^ k ≤ v ∧ v < 2 ^ k) :
    ∀ x ∈ storedRels vals, x < 2 ^ (k + 2) := by
  intro x hx
  obtain ⟨d, hd, rfl⟩ := List.mem_map.1 hx
  have hbounds := deltas_bounds h
  have hpow : (0 : Int) < 2 ^ k := by positivity
  have hmin := lt_minDelta (by omega) fun d hd => (hbounds d hd).1
  have hd := (hbounds d hd).2
  refine (Nat.mod_le _ _).trans_lt ?_
  have hcast : ((2 ^ (k + 2) : Nat) : Int) = 4 * 2 ^ k := by push_cast; ring
  omega

/-! ### The length of a block (rules R284, R285, R287) -/

theorem miniWidth_le {xs : List Nat} {b : Nat} (h : ∀ x ∈ xs, x < 2 ^ b) : miniWidth xs ≤ b :=
  bitWidth_le_iff.2 (List.foldlRecOn (motive := (· < 2 ^ b)) xs max (Nat.two_pow_pos b)
    fun _ ha x hx => max_lt ha (h x hx))

/-- Keeping the shorter one ends with one no longer than any it has seen (rule R287). -/
theorem foldl_keepShorter_le : ∀ (cs : List Bytes) (b : Bytes), ∃ r, cs.foldl keepShorter (some b) = some r ∧
    r.length ≤ b.length ∧ ∀ c ∈ cs, r.length ≤ c.length
  | [], b => ⟨b, rfl, le_rfl, by simp⟩
  | c :: cs, b => by
    by_cases hlt : c.length < b.length
    · obtain ⟨r, hr, hrc, hall⟩ := foldl_keepShorter_le cs c
      refine ⟨r, by rw [List.foldl_cons, keepShorter, if_pos hlt, hr], by omega, ?_⟩
      rintro x (_ | ⟨_, hx⟩)
      · exact hrc
      · exact hall x hx
    · obtain ⟨r, hr, hrb, hall⟩ := foldl_keepShorter_le cs b
      refine ⟨r, by rw [List.foldl_cons, keepShorter, if_neg hlt, hr], hrb, ?_⟩
      rintro x (_ | ⟨_, hx⟩)
      · omega
      · exact hall x hx

/-- The block chosen is no longer than the one of any candidate size (rule R287). -/
theorem bestBlock_length_le_serialize {w : Nat} {vals : List Int} {m : Nat} (hlen : vals.length ≠ 1)
    (hm : m ∈ candidates (blockSize (vals.length - 1))) : (bestBlock w vals).length ≤ (serialize w vals m).length := by
  rw [bestBlock, if_neg hlen]
  have hmem : serialize w vals m ∈ (candidates (blockSize (vals.length - 1))).map (serialize w vals) :=
    List.mem_map_of_mem hm
  cases hcs : (candidates (blockSize (vals.length - 1))).map (serialize w vals) with
  | nil => rw [hcs] at hmem; cases hmem
  | cons c cs =>
    obtain ⟨r, hr, hrc, hall⟩ := foldl_keepShorter_le cs c
    rw [hcs] at hmem
    rw [List.foldl_cons, keepShorter, hr, Option.getD_some]
    rcases List.mem_cons.1 hmem with heq | hmem
    · rw [heq]; exact hrc
    · exact hall _ hmem

/-- Up to 128 deltas fit their block size, which is itself a candidate (rules R281, R287). -/
theorem blockSize_spec {n : Nat} (hpos : 1 ≤ n) (hmax : n ≤ 128) :
    n ≤ blockSize n ∧ blockSize n ≤ 128 ∧ blockSize n ∈ candidates (blockSize n) := by
  unfold blockSize
  rw [if_neg (by omega)]
  split
  · exact ⟨by omega, by decide, by decide⟩
  split
  · exact ⟨by omega, by decide, by decide⟩
  split
  · exact ⟨by omega, by decide, by decide⟩
  split
  · exact ⟨by omega, by decide, by decide⟩
  · exact ⟨hmax, by decide, by decide⟩

theorem varlen_toNat_le {w : Nat} (hw : 0 < w) (x : BitVec w) : varlen x.toNat ≤ maxVarintBytes w := by
  have hwidth := bitWidth_le_iff.2 x.isLt
  rw [varlen, maxVarintBytes]
  omega

/-- A block of one mini-block, by its parts (rule R284). -/
theorem serialize_blockSize_length {w : Nat} {vals : List Int} (h2 : 2 ≤ vals.length) (hmax : vals.length ≤ 129) :
    (serialize w vals (blockSize (vals.length - 1))).length =
      varlen (blockSize (vals.length - 1)) + varlen 1 + varlen vals.length +
        varlen (zigzag (BitVec.ofInt w (vals.headD 0))).toNat + varlen (zigzag (storedMin vals)).toNat + 1 +
        bytesFor ((vals.length - 1) * miniWidth (storedRels vals)) := by
  obtain ⟨hfits, -, -⟩ := blockSize_spec (n := vals.length - 1) (by omega) (by omega)
  have hone : blockSize (vals.length - 1) / blockSize (vals.length - 1) = 1 := Nat.div_self (by omega)
  have htake : (storedRels vals).take (blockSize (vals.length - 1)) = storedRels vals :=
    List.take_of_length_le (by rw [storedRels_length]; exact hfits)
  simp only [serialize, hone, miniBlocks, htake, List.map_cons, List.map_nil, List.flatten_cons, List.flatten_nil,
    List.append_nil, List.length_append, List.length_singleton, varint_length, pack_length, storedRels_length, bytesFor]

/-- A block of values whose relative deltas have `b` bits: at most 16 bytes, the first value, and `b` bits a delta. -/
theorem bestBlock_length_le {w b : Nat} {vals : List Int} (hw : 0 < w) (hpos : 1 ≤ vals.length)
    (hmax : vals.length ≤ 129) (hrels : ∀ x ∈ storedRels vals, x < 2 ^ b) :
    (bestBlock w vals).length ≤ 16 + maxVarintBytes w + bytesFor ((vals.length - 1) * b) := by
  have hfirst := varlen_toNat_le hw (zigzag (BitVec.ofInt w (vals.headD 0)))
  by_cases h1 : vals.length = 1
  · have hone : (bestBlock w vals).length = 3 + varlen (zigzag (BitVec.ofInt w (vals.headD 0))).toNat := by
      rw [bestBlock, if_pos h1, serialize1, List.length_append, varint_length]
      rfl
    omega
  · obtain ⟨-, hsize, hmem⟩ := blockSize_spec (n := vals.length - 1) (by omega) (by omega)
    have hbest := bestBlock_length_le_serialize (w := w) h1 hmem
    rw [serialize_blockSize_length (by omega) hmax] at hbest
    have hvarSize : varlen (blockSize (vals.length - 1)) ≤ 2 := (varlen_le_iff (by decide)).2 (by omega)
    have hvarOne : varlen 1 ≤ 1 := (varlen_le_iff (by decide)).2 (by decide)
    have hvarCount : varlen vals.length ≤ 2 := (varlen_le_iff (by decide)).2 (by omega)
    have hvarMin : varlen (zigzag (storedMin vals)).toNat ≤ 10 := varlen_toNat_le (by decide) _
    have hbits := Nat.mul_le_mul_left (vals.length - 1) (miniWidth_le hrels)
    rw [bytesFor] at hbest ⊢
    omega

/-! ### Units 4 and 5 (rules R294, R300) -/

theorem bufferedVals_length {w : Nat} (vb : List (BitVec w)) : (bufferedVals vb).length = vb.length :=
  List.length_map _

theorem bestBlock32_length_le {vb : List (BitVec 32)} (hne : vb ≠ []) (hmax : vb.length ≤ 129) :
    (bestBlock 32 (bufferedVals vb)).length ≤ 32 + 5 * vb.length := by
  have hpos := List.length_pos_of_ne_nil hne
  have hrels : ∀ x ∈ storedRels (bufferedVals vb), x < 2 ^ 33 := storedRels_lt_of_bounds (k := 31) fun v hv => by
    obtain ⟨x, -, rfl⟩ := List.mem_map.1 hv
    exact ⟨x.le_toInt, x.toInt_lt⟩
  have hblock := bestBlock_length_le (w := 32) (by decide) (by rwa [bufferedVals_length])
    (by rwa [bufferedVals_length]) hrels
  rw [bufferedVals_length, maxVarintBytes, bytesFor] at hblock
  omega

theorem bestBlock64_length_le {vb : List (BitVec 64)} (hne : vb ≠ []) (hmax : vb.length ≤ 129) :
    (bestBlock 64 (bufferedVals vb)).length ≤ 32 + 9 * vb.length := by
  have hpos := List.length_pos_of_ne_nil hne
  have hblock := bestBlock_length_le (w := 64) (by decide) (by rwa [bufferedVals_length])
    (by rwa [bufferedVals_length]) (storedRels_lt _)
  rw [bufferedVals_length, maxVarintBytes, bytesFor] at hblock
  omega

/-- With the estimate's room in the staging buffer a finish completes, and stages no more (rules R294, R300). -/
theorem deltaFinish_of_est {w per cap : Nat} {e : DeltaEnc w} (hfin : e.fin = false)
    (hblock : e.vb ≠ [] → (bestBlock w (bufferedVals e.vb)).length ≤ 32 + per * e.vb.length)
    (hroom : deltaEst per e ≤ cap) :
    ∃ e', deltaFinish cap e = .ok e' ∧ e'.fin = true ∧ e'.st.length ≤ deltaEst per e := by
  rw [deltaFinish, if_neg (by simp [hfin])]
  rw [deltaEst] at hroom ⊢
  by_cases hne : e.vb = []
  · exact ⟨_, bind_eq_ok.2 ⟨e, flushAll_eq_ok.2 (.inl ⟨hne, rfl⟩), rfl⟩, rfl, Nat.le_add_right _ _⟩
  · have hle := hblock hne
    rw [if_pos (List.length_pos_of_ne_nil hne)] at hroom ⊢
    refine ⟨_, bind_eq_ok.2 ⟨_, flushAll_eq_ok.2 (.inr ⟨hne, by omega, rfl⟩), rfl⟩, rfl, ?_⟩
    rw [List.length_append]
    omega

/-! ### The statement -/

/-- Settles O57: units 0 and 1 stage what they estimate, and a block is no longer than its share of the estimate. -/
theorem estimatesBoundFinish : Obligations.EstimatesBoundFinish := by
  intro arg s hrun
  refine ⟨fun hinv t ht htrun => ?est0, fun hinv t ht htrun => ?est1, command_setR hrun rfl rfl,
    command_setR hrun rfl rfl, fun hfin hmax hroom => ?fin4, fun hfin hmax hroom => ?fin5⟩
  case est0 =>
    obtain ⟨e, he, rfl⟩ := effect_of_running ht hrun htrun
    exact command_setR hrun rfl (congrArg natResult (boolFinish_length hinv he))
  case est1 =>
    obtain ⟨e, he, rfl⟩ := effect_of_running ht hrun htrun
    exact command_setR hrun rfl (congrArg natResult (hybridFinish_length hinv he))
  case fin4 =>
    obtain ⟨e, he, hdone, hlen⟩ := deltaFinish_of_est hfin (fun hne => bestBlock32_length_le hne hmax) hroom
    exact ⟨e, command_ok hrun rfl (bind_eq_ok.2 ⟨e, he, rfl⟩), hdone, hlen⟩
  case fin5 =>
    obtain ⟨e, he, hdone, hlen⟩ := deltaFinish_of_est hfin (fun hne => bestBlock64_length_le hne hmax) hroom
    exact ⟨e, command_ok hrun rfl (bind_eq_ok.2 ⟨e, he, rfl⟩), hdone, hlen⟩

end Sys2Proof.Machine
end

section
/-! PROOFS. What buffering a list of values leaves of the hybrid engine (rules R222, R224, R229): the octuplets they
fill, packed one behind the other, and the rest. -/

namespace Sys2Proof.Machine

/-! ### Octuplets fill whole bytes (rules R8, R16) -/

theorem bytesLE_add (m n x : Nat) : bytesLE x (m + n) = bytesLE x m ++ bytesLE (x / 256 ^ m) n := by
  induction m generalizing x with
  | zero => simp [bytesLE]
  | succ m ih =>
    rw [Nat.succ_add, bytesLE, bytesLE, ih, List.cons_append, Nat.div_div_eq_div_mul, ← Nat.pow_succ']

theorem packSum_append (w : Nat) (xs ys : List Nat) :
    packSum w (xs ++ ys) = packSum w xs + 2 ^ (xs.length * w) * packSum w ys := by
  induction xs with
  | nil => simp [packSum]
  | cons x xs ih =>
    rw [List.cons_append, packSum, packSum, ih, List.length_cons, Nat.succ_mul, Nat.add_comm (xs.length * w),
      Nat.pow_add]
    ring

/-- Values that fill whole bytes are packed on their own, and the values behind them too. -/
theorem pack_append {w : Nat} {xs ys : List Nat} (h : 8 ∣ xs.length * w) :
    pack (xs ++ ys) w = pack xs w ++ pack ys w := by
  obtain ⟨k, hk⟩ := h
  have hlt : packSum w xs < 256 ^ k := by
    rw [show 256 = 2 ^ 8 from rfl, ← Nat.pow_mul, ← hk]
    exact packSum_lt w xs
  have hsum : packSum w (xs ++ ys) = packSum w xs + 256 ^ k * packSum w ys := by
    rw [packSum_append, hk, Nat.pow_mul]
  have hbytes : bytesFor ((xs ++ ys).length * w) = k + bytesFor (ys.length * w) := by
    rw [List.length_append, Nat.add_mul, hk, bytesFor, bytesFor]
    omega
  have hxs : bytesFor (xs.length * w) = k := by rw [hk, bytesFor]; omega
  rw [pack, hbytes, bytesLE_add, ← bytesLE_mod, hsum, Nat.add_mul_mod_self_left, Nat.mod_eq_of_lt hlt,
    Nat.add_mul_div_left _ _ (by positivity), Nat.div_eq_of_lt hlt, Nat.zero_add, ← hxs]
  rfl

/-- An octuplet takes as many bytes as a value has bits. -/
theorem pack_octuplet_length {o : List Word} (h : o.length = 8) (w : Nat) :
    (pack (o.map BitVec.toNat) w).length = w := by
  rw [pack_length, List.length_map, h]
  omega

theorem octuplet_length {o : List Word} (h : o.length = 7) (v : Word) : (o ++ [v]).length = 8 := by
  rw [List.length_append, h, List.length_singleton]

/-! ### Buffering a list of values (rules R222, R224, R229) -/

/-- `buffer(E, v)` for each value of a list. -/
def bufferList (p : Config.Params) : List Word → HybridEnc → Except FaultCode HybridEnc
  | [], e => .ok e
  | v :: vs, e => bufferValue p e v >>= bufferList p vs

theorem bufferRepeat_eq_bufferList (p : Config.Params) (v : Word) (n : Nat) (e : HybridEnc) :
    bufferRepeat p v n e = bufferList p (List.replicate n v) e := by
  induction n generalizing e with
  | zero => rfl
  | succ n ih => exact congrArg (bufferValue p e v >>= ·) (funext ih)

theorem bufferList_singleton (p : Config.Params) (v : Word) (e : HybridEnc) :
    bufferList p [v] e = bufferValue p e v := by
  rw [bufferList]
  cases bufferValue p e v <;> rfl

theorem bufferList_append (p : Config.Params) (xs ys : List Word) (e : HybridEnc) :
    bufferList p (xs ++ ys) e = bufferList p xs e >>= bufferList p ys := by
  induction xs generalizing e with
  | nil => rfl
  | cons x xs ih =>
    rw [List.cons_append, bufferList, bufferList]
    cases bufferValue p e x with
    | error c => rfl
    | ok e' => exact ih e'

/-- The engine with more values in its octuplet, every eight of them packed into the pending run. -/
def HybridEnc.buffered (e : HybridEnc) (vs : List Word) : HybridEnc :=
  let all := e.oct ++ vs
  let q := all.length / 8
  { e with oct := all.drop (8 * q), pr := e.pr ++ pack ((all.take (8 * q)).map BitVec.toNat) e.wid,
           noct := e.noct + q }

theorem buffered_oct_length (e : HybridEnc) (vs : List Word) :
    (e.buffered vs).oct.length = (e.oct.length + vs.length) % 8 := by
  rw [HybridEnc.buffered, List.length_drop, List.length_append]
  omega

theorem buffered_noct (e : HybridEnc) (vs : List Word) :
    (e.buffered vs).noct = e.noct + (e.oct.length + vs.length) / 8 := by
  rw [HybridEnc.buffered, List.length_append]

/-- Each octuplet packed is as many bytes as a value has bits. -/
theorem buffered_pending {e : HybridEnc} (h : e.pr.length = e.noct * e.wid) (vs : List Word) :
    (e.buffered vs).pr.length = (e.buffered vs).noct * e.wid := by
  have hle : 8 * ((e.oct ++ vs).length / 8) ≤ (e.oct ++ vs).length := Nat.mul_div_le _ _
  rw [HybridEnc.buffered, List.length_append, pack_length, List.length_map, List.length_take_of_le hle, h,
    Nat.mul_assoc, Nat.add_mul]
  omega

/-- No value more leaves a partial octuplet as it is. -/
theorem buffered_nil {e : HybridEnc} (h : e.oct.length ≤ 7) : e.buffered [] = e := by
  have hq : e.oct.length / 8 = 0 := by omega
  simp [HybridEnc.buffered, hq, pack, bytesLE, bytesFor]

/-- One value more, short of the eighth, grows the octuplet. -/
theorem buffered_of_partial (e : HybridEnc) (v : Word) (vs : List Word) :
    ({ e with oct := e.oct ++ [v] } : HybridEnc).buffered vs = e.buffered (v :: vs) := by
  simp [HybridEnc.buffered]

/-- The eighth value packs the octuplet; the values behind it start the next one. -/
theorem buffered_of_eighth {e : HybridEnc} (h : e.oct.length = 7) (v : Word) (vs : List Word) :
    ({ e with pr := e.pr ++ pack ((e.oct ++ [v]).map BitVec.toNat) e.wid, noct := e.noct + 1, oct := [] } :
      HybridEnc).buffered vs = e.buffered (v :: vs) := by
  have hlen := octuplet_length h v
  have hsplit : e.oct ++ v :: vs = (e.oct ++ [v]) ++ vs := List.append_cons e.oct v vs
  generalize e.oct ++ [v] = o at hlen hsplit
  have hq : (o ++ vs).length / 8 = vs.length / 8 + 1 := by rw [List.length_append, hlen]; omega
  have hpos : 8 * (vs.length / 8 + 1) = o.length + 8 * (vs.length / 8) := by omega
  have hpack : 8 ∣ (o.map BitVec.toNat).length * e.wid := by
    rw [List.length_map, hlen]; exact Nat.dvd_mul_right 8 e.wid
  simp only [HybridEnc.buffered, hsplit, hq, hpos, List.take_length_add_append, List.drop_length_add_append,
    List.nil_append, List.map_append, pack_append hpack, List.append_assoc, Nat.add_assoc, Nat.add_comm 1]

/-- Buffering ends with the values in their octuplets, or raises `CAPACITY` when the run buffer cannot take all of the
octuplets they fill. -/
theorem bufferList_eq {p : Config.Params} {vs : List Word} {e : HybridEnc} (hoct : e.oct.length ≤ 7)
    (hpr : e.pr.length ≤ p.prcap) :
    bufferList p vs e =
      if e.pr.length + (e.oct.length + vs.length) / 8 * e.wid ≤ p.prcap then .ok (e.buffered vs)
      else .error .capacity := by
  induction vs generalizing e with
  | nil =>
    have hq : (e.oct.length + 0) / 8 = 0 := by omega
    rw [List.length_nil, hq, Nat.zero_mul, Nat.add_zero, if_pos hpr, buffered_nil hoct, bufferList]
  | cons v vs ih =>
    rw [bufferList, List.length_cons]
    by_cases h7 : e.oct.length = 7
    · have hlen := pack_octuplet_length (octuplet_length h7 v) e.wid
      have hq : (e.oct.length + (vs.length + 1)) / 8 * e.wid = e.wid + vs.length / 8 * e.wid := by
        rw [h7, show (7 + (vs.length + 1)) / 8 = 1 + vs.length / 8 by omega, Nat.add_mul, Nat.one_mul]
      by_cases hfit : e.pr.length + e.wid ≤ p.prcap
      · have hpr' : (e.pr ++ pack ((e.oct ++ [v]).map BitVec.toNat) e.wid).length ≤ p.prcap := by
          rw [List.length_append, hlen]; exact hfit
        rw [bufferValue_eq_ok.2 (.inr ⟨h7, by rw [hlen]; exact hfit, rfl⟩)]
        refine (ih (e := { e with pr := _, noct := _, oct := [] }) (Nat.zero_le 7) hpr').trans ?_
        rw [buffered_of_eighth h7, hq, List.length_append, hlen, List.length_nil, Nat.zero_add, Nat.add_assoc]
      · rw [bufferValue_eq_error.2 ⟨h7, by rw [hlen]; omega, rfl⟩, if_neg (by omega)]
        rfl
    · have hoct' : (e.oct ++ [v]).length ≤ 7 := by rw [List.length_append, List.length_singleton]; omega
      rw [bufferValue_eq_ok.2 (.inl ⟨h7, rfl⟩)]
      refine (ih (e := { e with oct := e.oct ++ [v] }) hoct' hpr).trans ?_
      rw [buffered_of_partial, List.length_append, List.length_singleton, Nat.add_assoc, Nat.add_comm 1]

end Sys2Proof.Machine
end

section
/-! PROOFS. What each operation of the hybrid engine answers, as an equation (rules R221 to R229), and with them the
exact next state of `ENC.1`, `FIN.1` and `WTO.1`, of `ENC.2` and `ENC.3`, and of the estimates. -/

namespace Sys2Proof.Machine

/-! ### Flushing the pending runs (rules R223, R229) -/

/-- What rule R38 item 4 says of an engine whatever the capacities are. -/
structure HybridEnc.Shape (e : HybridEnc) : Prop where
  partialOct : e.oct.length ≤ 7
  exclusive : e.oct ≠ [] → e.rn = 0
  pending : e.pr.length = e.noct * e.wid

theorem HybridEnc.Inv.shape {p : Config.Params} {e : HybridEnc} (h : e.Inv p) : e.Shape :=
  ⟨h.partialOct, h.exclusive, h.pending⟩

theorem HybridEnc.Shape.pr_eq_nil {e : HybridEnc} (h : e.Shape) (h0 : e.noct = 0) : e.pr = [] :=
  List.eq_nil_of_length_eq_zero (by rw [h.pending, h0, Nat.zero_mul])

/-- An operation with one answer and one fault, decided by whether something fits. -/
theorem eq_ite_capacity {α : Type} {fits : Prop} [Decidable fits] {x : Except FaultCode α} {a : α}
    (hok : ∀ r, x = .ok r ↔ fits ∧ r = a) (hfault : ∀ c, x = .error c → c = .capacity) :
    x = if fits then .ok a else .error .capacity := by
  split
  · next h => exact (hok a).2 ⟨h, rfl⟩
  · next h =>
    cases hx : x with
    | ok r => exact absurd ((hok r).1 hx).1 h
    | error c => rw [hfault c hx]

/-- The pending bit-packed run goes out, if there is one, or does not fit (rule R223). -/
theorem flushPacked_eq {p : Config.Params} {e : HybridEnc} (hempty : e.noct = 0 → e.pr = [])
    (hst : e.st.length ≤ p.stcap) :
    flushPacked p e =
      if (e.st ++ packedRunBytes e).length ≤ p.stcap then
        .ok { e with st := e.st ++ packedRunBytes e, noct := 0, pr := [] }
      else .error .capacity := by
  refine eq_ite_capacity (fun r => flushPacked_eq_ok.trans ?_) fun c hc => (flushPacked_eq_error.1 hc).2.2
  by_cases h0 : e.noct = 0
  · have hsame : { e with st := e.st ++ packedRunBytes e, noct := 0, pr := [] } = e := by
      rw [packedRunBytes, if_pos h0, List.append_nil, ← h0, ← hempty h0]
    rw [hsame, packedRunBytes, if_pos h0, List.append_nil]
    simp [h0, hst]
  · simp [packedRunBytes, h0, Nat.pos_of_ne_zero h0, Nat.add_assoc]

/-- The engine once the pending bit-packed run and the candidate are staged as runs. -/
def HybridEnc.closed (e : HybridEnc) : HybridEnc :=
  { e with st := e.st ++ packedRunBytes e ++ rleRunBytes e, rn := 0, noct := 0, pr := [] }

/-- Both go out, or one of them does not fit (rule R223). -/
theorem flushRLE_eq {p : Config.Params} {e : HybridEnc} (hempty : e.noct = 0 → e.pr = []) :
    flushRLE p e = if e.closed.st.length ≤ p.stcap then .ok e.closed else .error .capacity := by
  refine eq_ite_capacity (fun r => (flushRLE_eq_ok hempty).trans ?_) fun c hc => flushRLE_faults hc
  rw [HybridEnc.closed, List.length_append, List.length_append]

/-! ### Finishing (rule R229) -/

/-- The engine with its partial octuplet filled with zeros and packed into the pending run. -/
def HybridEnc.padded (e : HybridEnc) : HybridEnc := e.buffered (List.replicate (8 - e.oct.length) 0)

theorem padded_eq {e : HybridEnc} (h : e.oct.length ≤ 7) :
    e.padded =
      { e with pr := e.pr ++ pack ((e.oct ++ List.replicate (8 - e.oct.length) 0).map BitVec.toNat) e.wid,
               noct := e.noct + 1, oct := [] } := by
  have hlen : (e.oct ++ List.replicate (8 - e.oct.length) (0 : Word)).length = 8 := by
    rw [List.length_append, List.length_replicate]; omega
  rw [HybridEnc.padded, HybridEnc.buffered]
  generalize e.oct ++ List.replicate (8 - e.oct.length) 0 = o at hlen
  have hq : o.length / 8 = 1 := by omega
  have hdrop : o.drop (8 * 1) = [] := List.drop_eq_nil_of_le (by omega)
  have htake : o.take (8 * 1) = o := List.take_of_length_le (by omega)
  simp only [hq, hdrop, htake]

/-- The runs a finish stages. -/
def HybridEnc.finalRuns (e : HybridEnc) : Bytes :=
  if e.oct ≠ [] then packedRunBytes e.padded
  else packedRunBytes e ++ if e.rn = 0 then [] else rleRunBytes e

/-- The engine a finish leaves. -/
def HybridEnc.flushed (e : HybridEnc) : HybridEnc :=
  { e with st := e.st ++ e.finalRuns, rn := 0, oct := [], pr := [], noct := 0 }

/-- A finish stages the final runs, or raises `CAPACITY` when the staging buffer cannot take them or the run buffer the
padded octuplet. -/
theorem finish1_eq {p : Config.Params} {e : HybridEnc} (h : e.Shape) (hst : e.st.length ≤ p.stcap)
    (hpr : e.pr.length ≤ p.prcap) :
    finish1 p e =
      if (e.st ++ e.finalRuns).length ≤ p.stcap ∧ (e.oct ≠ [] → e.pr.length + e.wid ≤ p.prcap) then .ok e.flushed
      else .error .capacity := by
  rw [finish1, HybridEnc.flushed, HybridEnc.finalRuns]
  by_cases hoct : e.oct = []
  · simp only [hoct, ne_eq, not_true_eq_false, if_false, false_implies, and_true]
    by_cases hrn : e.rn = 0
    · rw [if_neg (by omega), if_pos hrn, List.append_nil, flushPacked_eq h.pr_eq_nil hst]
      simp only [hoct, hrn]
    · rw [if_pos (by omega), if_neg hrn, flushRLE_eq h.pr_eq_nil, HybridEnc.closed, List.append_assoc]
      simp only [hoct]
  · have hpartial := h.partialOct
    have hq : (e.oct.length + (List.replicate (8 - e.oct.length) (0 : Word)).length) / 8 = 1 := by
      rw [List.length_replicate]; omega
    have hne : e.padded.noct ≠ 0 := by rw [padded_eq hpartial]; exact Nat.succ_ne_zero _
    rw [if_pos hoct, if_pos hoct, bufferRepeat_eq_bufferList, bufferList_eq hpartial hpr, hq, Nat.one_mul]
    by_cases hfit : e.pr.length + e.wid ≤ p.prcap
    · simp only [hfit, implies_true, and_true, if_true]
      refine (flushPacked_eq (e := e.padded) (fun h0 => absurd h0 hne) hst).trans ?_
      rw [padded_eq hpartial]
      simp only [h.exclusive hoct]
    · rw [if_neg hfit, if_neg fun hboth => hfit (hboth.2 hoct)]
      rfl

/-! ### Encoding one value, branch by branch (rules R221, R224) -/

section Encode
variable {p : Config.Params} {e : HybridEnc} {v : Word}

/-- Mid-octuplet the value is buffered. -/
theorem encode1_midOctuplet (hoct : e.oct ≠ []) : encode1 p e v = bufferList p [v] e := by
  rw [encode1, if_pos (.inl hoct), encodeFresh, if_pos hoct, bufferList_singleton]

/-- With no candidate the value starts one. -/
theorem encode1_starts (hoct : e.oct = []) (hrn : e.rn = 0) : encode1 p e v = .ok { e with rv := v, rn := 1 } := by
  rw [encode1, if_pos (.inr hrn), encodeFresh, if_neg (by simp [hoct])]

/-- The candidate's own value extends it, up to the longest run. -/
theorem encode1_extends (hoct : e.oct = []) (hrn : 0 < e.rn) (hv : v = e.rv) :
    encode1 p e v = if e.rn = Config.maxRun then .error .capacity else .ok { e with rn := e.rn + 1 } := by
  rw [encode1, if_neg (by simp [hoct]; omega), if_pos hv]

/-- Another value closes a candidate of at least the threshold as a run and starts the next one. -/
theorem encode1_closes (hoct : e.oct = []) (hrn : 0 < e.rn) (hv : v ≠ e.rv) (hlong : threshold e.wid ≤ e.rn) :
    encode1 p e v = flushRLE p e >>= fun e' => .ok { e' with rv := v, rn := 1 } := by
  rw [encode1, if_neg (by simp [hoct]; omega), if_neg hv, if_pos hlong]

theorem one_le_threshold (w : Nat) : 1 ≤ threshold w := by
  unfold threshold
  split
  · exact Nat.le_refl 1
  · exact Nat.le_add_left 1 _

/-- What goes into octuplets when the value `v` ends a candidate below the threshold: the candidate, and `v` itself
where it comes mid-octuplet. -/
def absorbed (e : HybridEnc) (v : Word) : List Word :=
  List.replicate e.rn e.rv ++ if e.rn % 8 = 0 then [] else [v]

/-- The engine after that: at an octuplet boundary `v` is the next candidate. -/
def HybridEnc.absorb (e : HybridEnc) (v : Word) : HybridEnc :=
  { e.buffered (absorbed e v) with rv := if e.rn % 8 = 0 then v else e.rv, rn := if e.rn % 8 = 0 then 1 else 0 }

/-- Another value absorbs a shorter candidate into octuplets. -/
theorem encode1_absorbs (hoct : e.oct = []) (hrn : 0 < e.rn) (hv : v ≠ e.rv) (hshort : e.rn < threshold e.wid)
    (hpr : e.pr.length ≤ p.prcap) :
    encode1 p e v =
      if e.pr.length + (absorbed e v).length / 8 * e.wid ≤ p.prcap then .ok (e.absorb v) else .error .capacity := by
  have hlen : e.oct.length = 0 := by rw [hoct, List.length_nil]
  have hbuffer (vs : List Word) (r : Nat) : bufferList p vs { e with rn := r } =
      if e.pr.length + vs.length / 8 * e.wid ≤ p.prcap then .ok { e.buffered vs with rn := r }
      else .error .capacity := by
    refine (bufferList_eq (e := { e with rn := r }) (by simp [hoct]) hpr).trans ?_
    rw [hlen, Nat.zero_add]
    rfl
  rw [encode1, if_neg (by simp [hoct]; omega), if_neg hv, if_neg (by omega), bufferRepeat_eq_bufferList, hbuffer _ e.rn]
  have hpartial : (e.buffered (List.replicate e.rn e.rv)).oct.length = e.rn % 8 := by
    rw [buffered_oct_length, hlen, Nat.zero_add, List.length_replicate]
  by_cases h8 : e.rn % 8 = 0
  · have hnone : (e.buffered (List.replicate e.rn e.rv)).oct = [] := List.eq_nil_of_length_eq_zero (by omega)
    rw [HybridEnc.absorb, absorbed, if_pos h8, if_pos h8, if_pos h8, List.append_nil]
    split
    · exact if_neg (by simp [hnone])
    · rfl
  · have hsome : (e.buffered (List.replicate e.rn e.rv)).oct ≠ [] := fun hnil =>
      h8 (by rw [← hpartial, hnil, List.length_nil])
    have happ := bufferList_append p (List.replicate e.rn e.rv) [v] { e with rn := 0 }
    rw [hbuffer, hbuffer] at happ
    rw [HybridEnc.absorb, absorbed, if_neg h8, if_neg h8, if_neg h8]
    refine Eq.trans ?_ happ.symm
    split
    · exact (if_pos hsome).trans (bufferList_singleton p v _).symm
    · rfl

end Encode

/-! ### The headers as the statements write them (rule R223) -/

theorem shiftLeft_one_eq (n : Nat) : n <<< 1 = 2 * n := by
  rw [Nat.shiftLeft_eq, Nat.pow_one, Nat.mul_comm]

theorem shiftLeft_one_or_one (n : Nat) : n <<< 1 ||| 1 = 2 * n + 1 := by
  rw [← Nat.shiftLeft_add_eq_or_of_lt (by decide), shiftLeft_one_eq]

theorem packedRunBytes_eq (e : HybridEnc) :
    packedRunBytes e = if e.noct = 0 then [] else varint (2 * e.noct + 1) ++ e.pr := by
  rw [packedRunBytes, shiftLeft_one_or_one]

theorem rleRunBytes_eq (e : HybridEnc) : rleRunBytes e = varint (2 * e.rn) ++ pack [e.rv.toNat] e.wid := by
  rw [rleRunBytes, shiftLeft_one_eq]

/-! ### `ENC.1` (rule R230) -/

/-- `ENC.1` on an unfinished unit answers what the engine does. -/
theorem exec_enc1 {arg : DWord} {s : State} (hfin : s.e1.fin = false) :
    exec (.enc1 arg) s = command (.enc1 arg) s
      (encode1 s.params s.e1 (argWord arg) >>= fun e => .ok (s.setE1 e)) :=
  congrArg (command (.enc1 arg) s) (if_neg (by simp [hfin]))

theorem exec_enc1_ok {arg : DWord} {s : State} {e : HybridEnc} (hrun : s.Running) (hfin : s.e1.fin = false)
    (h : encode1 s.params s.e1 (argWord arg) = .ok e) : exec (.enc1 arg) s = .next { s with e1 := e } :=
  (exec_enc1 hfin).trans (command_ok hrun rfl (bind_eq_ok.2 ⟨e, h, rfl⟩))

theorem exec_enc1_error {arg : DWord} {s : State} {c : FaultCode} (hrun : s.Running) (hfin : s.e1.fin = false)
    (h : encode1 s.params s.e1 (argWord arg) = .error c) :
    exec (.enc1 arg) s = .next (enterFault c (encode (.enc1 arg)) s) :=
  (exec_enc1 hfin).trans (command_error hrun rfl (bind_eq_error.2 (.inl h)))

/-- Settles O46: each branch of the encoding decision, by the equation of the engine for it. -/
theorem hybridEncodeBranches : Obligations.HybridEncodeBranches := by
  refine ⟨⟨rfl, fun w hw _ => if_neg (by omega)⟩, fun arg s hrun hfin => command_error hrun rfl (if_pos hfin), ?_⟩
  intro arg s hrun hinv hfin e v goes full
  have hshape : e.Shape := hinv.shape
  have hbuffer (hoct : e.oct ≠ []) : bufferValue s.params e v = encode1 s.params e v :=
    (bufferList_singleton s.params v e).symm.trans (encode1_midOctuplet hoct).symm
  have hne (h7 : e.oct.length = 7) : e.oct ≠ [] := List.ne_nil_of_length_pos (by omega)
  refine ⟨fun hoct hlt => ?mid, fun h7 hfit => ?eighth, fun h7 hover => ?eighthFull, fun hoct hrn => ?starts,
    fun hoct hrn hv hlt => ?repeats, fun hoct hv hmax => ?longest, fun hoct hv hlong => ?closes,
    fun hoct hv hrn hshort => ?absorbs⟩
  case mid =>
    exact exec_enc1_ok hrun hfin (hbuffer hoct ▸ bufferValue_eq_ok.2 (.inl ⟨by omega, rfl⟩))
  case eighth =>
    exact exec_enc1_ok hrun hfin (hbuffer (hne h7) ▸
      bufferValue_eq_ok.2 (.inr ⟨h7, by rw [pack_octuplet_length (octuplet_length h7 v)]; exact hfit, rfl⟩))
  case eighthFull =>
    exact exec_enc1_error hrun hfin (hbuffer (hne h7) ▸
      bufferValue_eq_error.2 ⟨h7, by rw [pack_octuplet_length (octuplet_length h7 v)]; exact hover, rfl⟩)
  case starts => exact exec_enc1_ok hrun hfin (encode1_starts hoct hrn)
  case repeats =>
    exact exec_enc1_ok hrun hfin ((encode1_extends hoct hrn hv).trans (if_neg (Nat.ne_of_lt hlt)))
  case longest =>
    exact exec_enc1_error hrun hfin ((encode1_extends hoct (by omega) hv).trans (if_pos hmax))
  case closes =>
    have hrn : 0 < e.rn := Nat.lt_of_lt_of_le (one_le_threshold e.wid) hlong
    have heq := encode1_closes (p := s.params) hoct hrn hv hlong
    rw [flushRLE_eq hshape.pr_eq_nil, HybridEnc.closed, packedRunBytes_eq, rleRunBytes_eq, ← List.append_assoc] at heq
    refine ⟨fun hfit => ?_, fun hover => ?_⟩
    · rw [if_pos hfit] at heq
      exact exec_enc1_ok hrun hfin heq
    · rw [if_neg (Nat.not_le_of_lt hover)] at heq
      exact exec_enc1_error hrun hfin heq
  case absorbs =>
    have heq := encode1_absorbs (p := s.params) hoct hrn hv hshort hinv.pendingFits
    refine ⟨fun hfit => ?_, fun hover => exec_enc1_error hrun hfin (heq.trans (if_neg (Nat.not_le_of_lt hover)))⟩
    have hnext := exec_enc1_ok hrun hfin (heq.trans (if_pos hfit))
    rw [HybridEnc.absorb, HybridEnc.buffered, hoct] at hnext
    exact hnext

/-! ### `FIN.1` and `WTO.1` (rules R231, R235) -/

/-- The final runs as the statements write them. -/
theorem finalRuns_eq {e : HybridEnc} (h : e.oct.length ≤ 7) :
    e.finalRuns =
      if e.oct ≠ [] then varint (2 * (e.noct + 1) + 1) ++ e.pr ++
        pack ((e.oct ++ List.replicate (8 - e.oct.length) 0).map BitVec.toNat) e.wid
      else (if e.noct = 0 then [] else varint (2 * e.noct + 1) ++ e.pr) ++
        if e.rn = 0 then [] else varint (2 * e.rn) ++ pack [e.rv.toNat] e.wid := by
  rw [HybridEnc.finalRuns, padded_eq h, packedRunBytes_eq, packedRunBytes_eq, rleRunBytes_eq,
    if_neg (Nat.succ_ne_zero e.noct), List.append_assoc]

/-- `FIN.1` and `WTO.1` share one finish (rules R231, R235). -/
theorem finishPair1 (arg : DWord) (s : State) :
    FinishPair s (.fin1 arg) (.wto1 arg) (hybridFinish s.params s.e1) s.setE1 (·.e1.st) :=
  ⟨rfl, rfl, rfl, rfl, fun _ => ⟨rfl, rfl, rfl⟩⟩

/-- A finish that completes puts the unit back (rule R201). -/
theorem FinishPair.completes {ε : Type} {s : State} {fin wto : Instr} {x : Except FaultCode ε} {set : ε → State}
    {staged : State → Bytes} (h : FinishPair s fin wto x set staged) (hrun : s.Running) {e : ε} (hx : x = .ok e) :
    exec fin s = .next (set e) :=
  h.execFin.trans (command_ok hrun h.finWf (bind_eq_ok.2 ⟨e, hx, rfl⟩))

/-- Settles O47: the finish of the engine, behind the flag, and the append of its stream. -/
theorem hybridFinishResult : Obligations.HybridFinishResult := by
  intro arg s hrun hinv e padded st e' fits
  have hpair := finishPair1 arg s
  have hfinish : finish1 s.params e = if fits then .ok { e' with fin := e.fin } else .error .capacity := by
    rw [finish1_eq hinv.shape hinv.staged hinv.pendingFits, HybridEnc.flushed, finalRuns_eq hinv.partialOct]
  have hbody (hfin : e.fin = false) : hybridFinish s.params e = if fits then .ok e' else .error .capacity := by
    rw [hybridFinish, if_neg (by simp [hfin]), hfinish]
    split <;> rfl
  refine ⟨fun hfin => hpair.completes hrun (if_pos hfin), fun hfin hfits => ?_, fun hfin hover => ?_⟩
  · have hx := (hbody hfin).trans (if_pos hfits)
    exact ⟨hpair.completes hrun hx, (hpair.appends hrun hx).1⟩
  · exact hpair.faults hrun ((hbody hfin).trans (if_neg hover))

/-! ### `ENC.2` and `ENC.3` (rules R237, R243) -/

/-- Settles O48: the guard, then the raw buffer with room or without. -/
theorem selfWidthEncodeResults : Obligations.SelfWidthEncodeResults := by
  intro arg s hrun v next
  have henc2 (hfin : s.e2.hyb.fin = false) : exec (.enc2 arg) s = command (.enc2 arg) s
      (selfEncode s.params s.e2 v >>= fun u => .ok (s.setE2 u)) :=
    congrArg (command (.enc2 arg) s) (if_neg (by simp [hfin]))
  have henc3 (hfin : s.e3.hyb.fin = false) : exec (.enc3 arg) s = command (.enc3 arg) s
      (selfEncode s.params s.e3 v >>= fun u => .ok (s.setE3 u)) :=
    congrArg (command (.enc3 arg) s) (if_neg (by simp [hfin]))
  have hok {u : SelfEnc} (hroom : u.raw.length < s.params.rawcap) : selfEncode s.params u v = .ok (next u) :=
    selfEncode_eq_ok.2 ⟨hroom, rfl⟩
  have hfault {u : SelfEnc} (hfull : s.params.rawcap ≤ u.raw.length) : selfEncode s.params u v = .error .capacity :=
    if_pos hfull
  refine ⟨fun hfin => command_error hrun rfl (if_pos hfin), fun hfin => command_error hrun rfl (if_pos hfin),
    fun hfin hroom => ?_, fun hfin hfull => ?_, fun hfin hroom => ?_, fun hfin hfull => ?_⟩
  · exact (henc2 hfin).trans (command_ok hrun rfl (bind_eq_ok.2 ⟨_, hok hroom, rfl⟩))
  · exact (henc2 hfin).trans (command_error hrun rfl (bind_eq_error.2 (.inl (hfault hfull))))
  · exact (henc3 hfin).trans (command_ok hrun rfl (bind_eq_ok.2 ⟨_, hok hroom, rfl⟩))
  · exact (henc3 hfin).trans (command_error hrun rfl (bind_eq_error.2 (.inl (hfault hfull))))

/-! ### The estimates (rules R206, R226, R241, R247, R294, R300) -/

theorem ite_pos_eq_ite_zero (n x : Nat) : (if 0 < n then x else 0) = if n = 0 then 0 else x := by
  rcases Nat.eq_zero_or_pos n with rfl | h
  · rfl
  · rw [if_pos h, if_neg (Nat.ne_of_gt h)]

/-- The length of a bit-packed run of `n` octuplets of width `w`, none for none. -/
def packedRunLength (n w : Nat) : Nat := if n = 0 then 0 else (varint (2 * n + 1)).length + n * w

theorem packedRunLength_eq (n w : Nat) :
    (if 0 < n then varlen ((n <<< 1) ||| 1) + n * w else 0) = packedRunLength n w := by
  rw [ite_pos_eq_ite_zero, packedRunLength, varint_length, shiftLeft_one_or_one]

/-- The estimate of the engine, its varints as the statement measures them (rule R226). -/
theorem engineEst_eq (e : HybridEnc) :
    engineEst e = e.st.length + packedRunLength (e.noct + if e.oct.length = 0 then 0 else 1) e.wid +
      if e.rn = 0 then 0 else (varint (2 * e.rn)).length + (e.wid + 7) / 8 := by
  rw [engineEst, packedRunLength_eq, ite_pos_eq_ite_zero, varint_length, shiftLeft_one_eq, bytesFor]
  simp only [List.length_eq_zero_iff]

theorem selfRunEst_eq (u : SelfEnc) : selfRunEst u = packedRunLength ((u.raw.length + 7) / 8) u.wmax := by
  have hzero : u.raw.length = 0 ↔ bytesFor u.raw.length = 0 := by rw [bytesFor]; omega
  rw [selfRunEst, ite_pos_eq_ite_zero, packedRunLength, varint_length, shiftLeft_one_or_one]
  simp only [hzero]
  rfl

/-- Settles O40: each unit's formula; a finished unit has nothing pending, so that its finish stages no more. -/
theorem estimateResults : Obligations.EstimateResults := by
  intro arg s hrun run answers
  have hest {i : Instr} {n m : Nat} (hexec : exec i s = command i s (.ok (s.setR (natResult n)))) (hwf : i.wf = true)
      (h : n = m) : answers i m :=
    hexec.trans (command_setR hrun hwf (congrArg natResult h))
  refine ⟨hest rfl rfl ?est0, hest rfl rfl (engineEst_eq s.e1), hest rfl rfl ?est2, hest rfl rfl ?est3,
    hest rfl rfl ?est4, hest rfl rfl ?est5, fun hinv hfin => hest rfl rfl ?fin0, fun hinv hfin => hest rfl rfl ?fin1,
    fun hinv hfin => hest rfl rfl ?fin4, fun hinv hfin => hest rfl rfl ?fin5⟩
  case est0 => exact congrArg (s.e0.st.length + ·) (ite_pos_eq_ite_zero _ _)
  case est2 => rw [selfRunEst_eq]; rfl
  case est3 => rw [selfRunEst_eq]; rfl
  case est4 => exact congrArg (s.e4.st.length + ·) (ite_pos_eq_ite_zero _ _)
  case est5 => exact congrArg (s.e5.st.length + ·) (ite_pos_eq_ite_zero _ _)
  case fin0 => exact boolFinish_length hinv (if_pos hfin)
  case fin1 => exact hybridFinish_length hinv (if_pos hfin)
  case fin4 => rw [deltaEst, hinv.finished hfin]; rfl
  case fin5 => rw [deltaEst, hinv.finished hfin]; rfl

end Sys2Proof.Machine
end

section
/-! PROOFS. Units 2 and 3 as a replay on unit 1 (rules R236, R238, R244): the engine keeps count of the values it has
been given, so with room for them it never faults; and bytes staged in front of its own change nothing else. -/

namespace Sys2Proof.Machine

/-! ### The engine behind bytes already staged -/

/-- The same engine, its staged bytes behind the bytes `b`. -/
def HybridEnc.behind (b : Bytes) (e : HybridEnc) : HybridEnc := { e with st := b ++ e.st }

theorem closed_behind (e : HybridEnc) (b : Bytes) : (e.behind b).closed = e.closed.behind b := by
  have hassoc : b ++ e.st ++ packedRunBytes e ++ rleRunBytes e = b ++ (e.st ++ packedRunBytes e ++ rleRunBytes e) := by
    rw [List.append_assoc b, List.append_assoc b]
  exact congrArg (fun st => { e with st := st, rn := 0, noct := 0, pr := [] }) hassoc

theorem flushed_behind (e : HybridEnc) (b : Bytes) : (e.behind b).flushed = e.flushed.behind b :=
  congrArg (fun st => { e with st := st, rn := 0, oct := [], pr := [], noct := 0 })
    (List.append_assoc b e.st e.finalRuns)

/-- Room for a stream of `n` values behind the bytes `b`: 9 bytes a value and 32 more to stage, 4 a value and 32 more in
the run buffer. -/
def Room (p : Config.Params) (b : Bytes) (n : Nat) : Prop :=
  b.length + 9 * n + 32 ≤ p.stcap ∧ 4 * n + 32 ≤ p.prcap

theorem Room.mono {p : Config.Params} {b : Bytes} {m n : Nat} (h : Room p b n) (hle : m ≤ n) : Room p b m := by
  obtain ⟨hst, hpr⟩ := h
  exact ⟨by omega, by omega⟩

/-- The engine has been given `k` values since it was empty: those pending are among them, and each of the others has
staged no more than 9 bytes. -/
structure HybridEnc.Given (e : HybridEnc) (k : Nat) : Prop extends e.Shape where
  width : e.wid ≤ 32
  counted : e.st.length + 9 * (8 * e.noct + e.oct.length + e.rn) ≤ 9 * k

theorem given_zero {w : Nat} (hw : w ≤ 32) : HybridEnc.Given { wid := w } 0 :=
  ⟨⟨Nat.zero_le 7, fun _ => rfl, (Nat.zero_mul w).symm⟩, hw, Nat.le_refl 0⟩

section Given
variable {e : HybridEnc} {k : Nat}

/-- An octuplet takes at most 32 bytes of the run buffer. -/
theorem HybridEnc.Given.pr_length_le (h : e.Given k) (q : Nat) : e.pr.length + q * e.wid ≤ 32 * (e.noct + q) := by
  have hle := Nat.mul_le_mul_left (e.noct + q) h.width
  rw [h.pending, ← Nat.add_mul]
  omega

theorem HybridEnc.Given.pr_fits {p : Config.Params} {b : Bytes} (h : e.Given k) (hroom : Room p b k) :
    e.pr.length ≤ p.prcap := by
  have hpr := h.pr_length_le 0
  have hcount := h.counted
  have hcap := hroom.2
  omega

/-- A bit-packed run is no longer than 37 bytes an octuplet. -/
theorem packedRunBytes_length_le (h : e.pr.length = e.noct * e.wid) (hw : e.wid ≤ 32) (hn : e.noct < 2 ^ 31) :
    (packedRunBytes e).length ≤ 37 * e.noct := by
  have hheader : varlen (e.noct <<< 1 ||| 1) ≤ 5 := (varlen_le_iff (by decide)).2 (by rw [shiftLeft_one_or_one]; omega)
  have hle := Nat.mul_le_mul_left e.noct hw
  rw [packedRunBytes_length h]
  split <;> omega

/-- An RLE run is no longer than 9 bytes. -/
theorem rleRunBytes_length_le (hw : e.wid ≤ 32) (hn : e.rn < 2 ^ 31) : (rleRunBytes e).length ≤ 9 := by
  have hheader : varlen (e.rn <<< 1) ≤ 5 := (varlen_le_iff (by decide)).2 (by rw [shiftLeft_one_eq]; omega)
  rw [rleRunBytes_length, bytesFor]
  omega

/-! ### One value more (rule R224) -/

/-- Values buffered are counted one by one. -/
theorem HybridEnc.Given.buffered (h : e.Given k) (hrn : e.rn = 0) (vs : List Word) :
    (e.buffered vs).Given (k + vs.length) := by
  have hcount := h.counted
  have hoct := buffered_oct_length e vs
  have hnoct := buffered_noct e vs
  refine ⟨⟨by omega, fun _ => hrn, buffered_pending h.pending vs⟩, h.width, ?_⟩
  have hst : (e.buffered vs).st = e.st := rfl
  have hrn' : (e.buffered vs).rn = e.rn := rfl
  rw [hst, hrn', hoct, hnoct]
  omega

/-- Values buffered go into the run buffer while it has room for them. -/
theorem HybridEnc.Given.buffered_fits (h : e.Given k) {q n : Nat} (hq : 8 * q ≤ e.oct.length + e.rn + n)
    {p : Config.Params} {b : Bytes} (hroom : Room p b (k + n)) : e.pr.length + q * e.wid ≤ p.prcap := by
  have hcount := h.counted
  have hpr := h.pr_length_le q
  have hcap := hroom.2
  omega

/-- A new candidate is one value more. -/
theorem HybridEnc.Given.starts (h : e.Given k) (hoct : e.oct = []) (hrn : e.rn = 0) (v : Word) :
    HybridEnc.Given { e with rv := v, rn := 1 } (k + 1) := by
  have hcount := h.counted
  refine ⟨⟨h.partialOct, fun hne => absurd hoct hne, h.pending⟩, h.width, ?_⟩
  dsimp only
  omega

/-- The engine, given one value more, goes on as `e'`, whatever is staged in front and whatever the capacities are, when
they leave room for the values so far. -/
def HybridEnc.Takes (e : HybridEnc) (v : Word) (k : Nat) (e' : HybridEnc) : Prop :=
  e'.Given k ∧ ∀ (p : Config.Params) (b : Bytes), Room p b k → encode1 p (e.behind b) v = .ok (e'.behind b)

/-- The value goes into the octuplet. -/
theorem HybridEnc.Given.takes_midOctuplet (h : e.Given k) (hoct : e.oct ≠ []) (v : Word) :
    e.Takes v (k + 1) (e.buffered [v]) := by
  refine ⟨h.buffered (h.exclusive hoct) [v], fun p b hroom => ?_⟩
  have hfit := h.buffered_fits (q := (e.oct.length + 1) / 8) (by omega) hroom
  refine (encode1_midOctuplet (e := e.behind b) hoct).trans ?_
  exact (bufferList_eq (e := e.behind b) h.partialOct (h.pr_fits (hroom.mono (Nat.le_succ k)))).trans (if_pos hfit)

/-- The value starts a candidate. -/
theorem HybridEnc.Given.takes_first (h : e.Given k) (hoct : e.oct = []) (hrn : e.rn = 0) (v : Word) :
    e.Takes v (k + 1) { e with rv := v, rn := 1 } :=
  ⟨h.starts hoct hrn v, fun _ b _ => encode1_starts (e := e.behind b) hoct hrn⟩

/-- The value extends the candidate, which fewer than the longest run's values cannot have filled. -/
theorem HybridEnc.Given.takes_repeat (h : e.Given k) (hk : k < Config.maxRun) (hoct : e.oct = []) (hrn : 0 < e.rn) :
    e.Takes e.rv (k + 1) { e with rn := e.rn + 1 } := by
  have hcount := h.counted
  refine ⟨⟨⟨h.partialOct, fun hne => absurd hoct hne, h.pending⟩, h.width, by dsimp only; omega⟩, fun p b _ => ?_⟩
  exact (encode1_extends (e := e.behind b) hoct hrn rfl).trans (if_neg (show e.rn ≠ Config.maxRun by omega))

theorem absorbed_length (e : HybridEnc) (v : Word) :
    (absorbed e v).length = e.rn + if e.rn % 8 = 0 then 0 else 1 := by
  rw [absorbed, List.length_append, List.length_replicate]
  split <;> rfl

/-- The value turns a short candidate into octuplets. -/
theorem HybridEnc.Given.takes_absorbing (h : e.Given k) (hoct : e.oct = []) (hrn : 0 < e.rn) {v : Word} (hv : v ≠ e.rv)
    (hshort : e.rn < threshold e.wid) : e.Takes v (k + 1) (e.absorb v) := by
  have hlen := absorbed_length e v
  have hcount := h.counted
  constructor
  · have hidle : HybridEnc.Given { e with rn := 0 } (k - e.rn) :=
      ⟨⟨h.partialOct, fun _ => rfl, h.pending⟩, h.width, by dsimp only; omega⟩
    have hbuffered := hidle.buffered rfl (absorbed e v)
    rw [HybridEnc.absorb]
    by_cases h8 : e.rn % 8 = 0
    · rw [if_pos h8] at hlen
      rw [show k - e.rn + (absorbed e v).length = k by omega] at hbuffered
      have hnone : (e.buffered (absorbed e v)).oct = [] := by
        apply List.eq_nil_of_length_eq_zero
        rw [buffered_oct_length, hlen, hoct, List.length_nil]
        omega
      rw [if_pos h8, if_pos h8]
      exact hbuffered.starts hnone rfl v
    · rw [if_neg h8] at hlen
      rw [show k - e.rn + (absorbed e v).length = k + 1 by omega] at hbuffered
      rw [if_neg h8, if_neg h8]
      exact hbuffered
  · intro p b hroom
    have hfit := h.buffered_fits (q := (absorbed e v).length / 8) (by rw [hlen]; split <;> omega) hroom
    refine (encode1_absorbs (e := e.behind b) hoct hrn hv hshort (h.pr_fits (hroom.mono (Nat.le_succ k)))).trans ?_
    exact if_pos hfit

/-- The candidate goes out behind the pending bit-packed run. -/
theorem HybridEnc.Given.takes_closing (h : e.Given k) (hk : k < Config.maxRun) (hoct : e.oct = []) {v : Word}
    (hv : v ≠ e.rv) (hlong : threshold e.wid ≤ e.rn) :
    e.Takes v (k + 1) { e.closed with rv := v, rn := 1 } := by
  have hrn : 0 < e.rn := Nat.lt_of_lt_of_le (one_le_threshold e.wid) hlong
  have hcount := h.counted
  have hmax : Config.maxRun = 2 ^ 31 - 1 := rfl
  have hpacked := packedRunBytes_length_le h.pending h.width (by omega)
  have hrle := rleRunBytes_length_le h.width (by omega)
  have hlen : e.closed.st.length ≤ 9 * k := by
    rw [HybridEnc.closed, List.length_append, List.length_append]
    omega
  refine ⟨⟨⟨h.partialOct, fun hne => absurd hoct hne, (Nat.zero_mul _).symm⟩, h.width, ?_⟩, fun p b hroom => ?_⟩
  · have hnone : e.closed.oct.length = 0 := List.length_eq_zero_iff.2 hoct
    have hnoct : e.closed.noct = 0 := rfl
    dsimp only
    omega
  · have hfit : (e.behind b).closed.st.length ≤ p.stcap := by
      have hcap := hroom.1
      rw [closed_behind, HybridEnc.behind, List.length_append]
      omega
    have hflush := (flushRLE_eq (e := e.behind b) h.pr_eq_nil).trans (if_pos hfit)
    rw [closed_behind] at hflush
    exact (encode1_closes (e := e.behind b) hoct hrn hv hlong).trans (bind_eq_ok.2 ⟨_, hflush, rfl⟩)

/-- One value more, in whichever branch of the encoding decision. -/
theorem HybridEnc.Given.takes (h : e.Given k) (hk : k < Config.maxRun) (v : Word) : ∃ e', e.Takes v (k + 1) e' := by
  by_cases hoct : e.oct = []
  · by_cases hrn : e.rn = 0
    · exact ⟨_, h.takes_first hoct hrn v⟩
    · have hpos : 0 < e.rn := Nat.pos_of_ne_zero hrn
      by_cases hv : v = e.rv
      · exact ⟨_, hv ▸ h.takes_repeat hk hoct hpos⟩
      · by_cases hlong : threshold e.wid ≤ e.rn
        · exact ⟨_, h.takes_closing hk hoct hv hlong⟩
        · exact ⟨_, h.takes_absorbing hoct hpos hv (Nat.lt_of_not_le hlong)⟩
  · exact ⟨_, h.takes_midOctuplet hoct v⟩

end Given

/-! ### All of the values, and the finish (rules R229, R236) -/

/-- The values of a list, one by one. -/
theorem encodeAll_given : ∀ {vs : List Word} {e : HybridEnc} {k : Nat}, e.Given k → k + vs.length ≤ Config.maxRun →
    ∃ e' : HybridEnc, e'.Given (k + vs.length) ∧ ∀ (p : Config.Params) (b : Bytes), Room p b (k + vs.length) →
      encodeAll p vs (e.behind b) = .ok (e'.behind b)
  | [], e, k, h, _ => ⟨e, h, fun _ _ _ => rfl⟩
  | v :: vs, e, k, h, hk => by
    rw [List.length_cons, Nat.add_comm vs.length, ← Nat.add_assoc] at hk ⊢
    obtain ⟨e₁, h₁, htake⟩ := h.takes (by omega) v
    obtain ⟨e₂, h₂, hrest⟩ := encodeAll_given (vs := vs) h₁ hk
    refine ⟨e₂, h₂, fun p b hroom => ?_⟩
    exact bind_eq_ok.2 ⟨_, htake p b (hroom.mono (Nat.le_add_right _ _)), hrest p b hroom⟩

/-- What a finish stages, the padding of the last octuplet included. -/
theorem finalRuns_length_le {e : HybridEnc} {k : Nat} (h : e.Given k) (hk : k ≤ Config.maxRun) :
    e.st.length + e.finalRuns.length ≤ 9 * k + 32 := by
  have hcount := h.counted
  have hmax : Config.maxRun = 2 ^ 31 - 1 := rfl
  rw [HybridEnc.finalRuns]
  by_cases hoct : e.oct = []
  · have hpacked := packedRunBytes_length_le h.pending h.width (by omega)
    rw [if_neg (not_not_intro hoct), List.length_append]
    by_cases hrn : e.rn = 0
    · rw [if_pos hrn, List.length_nil]
      omega
    · have hrle := rleRunBytes_length_le h.width (by omega)
      rw [if_neg hrn]
      omega
  · have hpos : 0 < e.oct.length := List.length_pos_of_ne_nil hoct
    have hpartial := h.partialOct
    have hnoct : e.padded.noct = e.noct + 1 := by rw [padded_eq hpartial]
    have hpacked := packedRunBytes_length_le (e := e.padded) (buffered_pending h.pending _) h.width (by omega)
    rw [if_pos hoct]
    omega

/-- The finish has the room it needs. -/
theorem finish1_given {e : HybridEnc} {k : Nat} (h : e.Given k) (hk : k ≤ Config.maxRun) {p : Config.Params} {b : Bytes}
    (hroom : Room p b k) : finish1 p (e.behind b) = .ok (e.flushed.behind b) := by
  have hcount := h.counted
  have hruns := finalRuns_length_le h hk
  have hcap := hroom.1
  have hst : (b ++ e.st).length ≤ p.stcap := by rw [List.length_append]; omega
  have hfits : (b ++ e.st ++ e.finalRuns).length ≤ p.stcap := by
    rw [List.length_append, List.length_append]
    omega
  have hpad (hoct : e.oct ≠ []) : e.pr.length + e.wid ≤ p.prcap := by
    have hpr := h.pr_length_le 1
    have hpos : 0 < e.oct.length := List.length_pos_of_ne_nil hoct
    have hprcap := hroom.2
    omega
  refine (finish1_eq (e := e.behind b) ⟨h.partialOct, h.exclusive, h.pending⟩ hst (h.pr_fits hroom)).trans ?_
  rw [flushed_behind]
  exact if_pos ⟨hfits, hpad⟩

/-- A whole stream: the engine the values leave, and its finish. -/
theorem replay_completes {w : Nat} (hw : w ≤ 32) {vs : List Word} (hlen : vs.length ≤ Config.maxRun) :
    ∃ e : HybridEnc, ∀ (p : Config.Params) (b : Bytes), Room p b vs.length →
      encodeAll p vs { wid := w, st := b } = .ok (e.behind b) ∧ finish1 p (e.behind b) = .ok (e.flushed.behind b) := by
  obtain ⟨e, hgiven, hall⟩ := encodeAll_given (vs := vs) (given_zero hw) (by omega)
  rw [Nat.zero_add] at hgiven hall
  refine ⟨e, fun p b hroom => ⟨?_, finish1_given hgiven hlen hroom⟩⟩
  have hstart : HybridEnc.behind b { wid := w } = { wid := w, st := b } := by rw [HybridEnc.behind, List.append_nil]
  rw [← hstart]
  exact hall p b hroom

/-! ### The run on unit 1 -/

/-- The values still to come, and the finish. -/
theorem runCommands_enc1_fin1 : ∀ {vs : List Word} {s : State} {e₁ e₂ : HybridEnc}, s.Running → s.e1.fin = false →
    encodeAll s.params vs s.e1 = .ok e₁ → finish1 s.params e₁ = .ok e₂ →
    ∃ rs, runCommands (vs.map (fun x => .enc1 (x.setWidth 64)) ++ [.fin1 0]) s =
      some (rs, s.setE1 { e₂ with fin := true })
  | [], s, e₁, e₂, hrun, hfin, henc, hfinish => by
    injection henc with henc
    subst henc
    have hunit : hybridFinish s.params s.e1 = .ok { e₂ with fin := true } := by
      rw [hybridFinish, if_neg (by simp [hfin]), hfinish]
      rfl
    exact ⟨_, (runCommands_cons ((finishPair1 0 s).completes hrun hunit) hrun).trans rfl⟩
  | v :: vs, s, e₁, e₂, hrun, hfin, henc, hfinish => by
    obtain ⟨e, hv, hrest⟩ := (bind_eq_ok (x := encode1 s.params s.e1 v)).1 henc
    have harg : argWord (v.setWidth 64) = v := by
      rw [argWord, BitVec.setWidth_setWidth_of_le _ (by decide), BitVec.setWidth_eq]
    have hexec : exec (.enc1 (v.setWidth 64)) s = .next (s.setE1 e) := exec_enc1_ok hrun hfin (harg.symm ▸ hv)
    have hfin' : (s.setE1 e).e1.fin = false := (encode1_same hv).1.trans hfin
    obtain ⟨rs, hrs⟩ := runCommands_enc1_fin1 (s := s.setE1 e) hrun hfin' hrest hfinish
    refine ⟨s.r :: rs, ?_⟩
    rw [List.map_cons, List.cons_append, runCommands_cons hexec hrun, hrs]
    rfl

/-- The same behind a reset of the unit to the width `w`. -/
theorem runCommands_rst1 {vs : List Word} {s : State} {w : Nat} {e₁ e₂ : HybridEnc} (hrun : s.Running) (hw : w ≤ 32)
    (henc : encodeAll s.params vs { wid := w } = .ok e₁) (hfinish : finish1 s.params e₁ = .ok e₂) :
    ∃ rs, runCommands (.rst1 (BitVec.ofNat 8 w) 0 :: vs.map (fun x => .enc1 (x.setWidth 64)) ++ [.fin1 0]) s =
      some (rs, s.setE1 { e₂ with fin := true }) := by
  have hwidth : (BitVec.ofNat 8 w).toNat = w := by rw [BitVec.toNat_ofNat, Nat.mod_eq_of_lt (by omega)]
  have hwf : (Instr.rst1 (BitVec.ofNat 8 w) 0).wf = true := decide_eq_true (by rw [hwidth]; exact hw)
  have hreset : exec (.rst1 (BitVec.ofNat 8 w) 0) s = .next (s.setE1 { wid := w }) := by
    refine (command_ok hrun hwf rfl).trans ?_
    rw [hwidth]
    rfl
  obtain ⟨rs, hrs⟩ := runCommands_enc1_fin1 (s := s.setE1 { wid := w }) hrun rfl henc hfinish
  refine ⟨s.r :: rs, ?_⟩
  rw [List.cons_append, runCommands_cons hreset hrun, hrs]
  rfl

/-! ### The finish of units 2 and 3 (rule R236) -/

/-- What stands in the staging buffer when the replay starts: the width byte of unit 3. -/
def widthBytes (prefixed : Bool) (w : Nat) : Bytes := if prefixed then [BitVec.ofNat 8 w] else []

theorem widthBytes_length_le (prefixed : Bool) (w : Nat) : (widthBytes prefixed w).length ≤ 1 := by
  cases prefixed with
  | false => exact Nat.zero_le 1
  | true => exact Nat.le_refl 1

theorem SelfEnc.Inv.wmax_le {p : Config.Params} {u : SelfEnc} (h : u.Inv p) : u.wmax ≤ 32 := by
  rw [h.wmax, maxOf]
  refine List.foldlRecOn (motive := (· ≤ 32)) _ max (Nat.zero_le 32) fun n hn x hx => max_le hn ?_
  obtain ⟨v, -, rfl⟩ := List.mem_map.1 hx
  exact bitWidth_le_iff.2 v.isLt

/-- The finish of a unit whose engine is idle: the replay, behind the flag. -/
theorem selfUnitFinish_ok {p : Config.Params} {prefixed : Bool} {u : SelfEnc} {e₁ e₂ : HybridEnc} (hinv : u.Inv p)
    (hfin : u.hyb.fin = false) (hroom : Room p (widthBytes prefixed u.wmax) u.raw.length)
    (henc : encodeAll p u.raw { wid := u.wmax, st := widthBytes prefixed u.wmax } = .ok e₁)
    (hfinish : finish1 p e₁ = .ok e₂) :
    selfUnitFinish p prefixed u = .ok { u with hyb := { e₂ with fin := true } } := by
  have hcap := hroom.1
  have hstage : stageWidth p prefixed u.hyb.st u.wmax = .ok (widthBytes prefixed u.wmax) := by
    rw [hinv.st_eq_nil hfin, stageWidth, widthBytes]
    rw [widthBytes] at hcap
    cases prefixed with
    | false => rfl
    | true => exact append_eq_ok.2 ⟨by simp at hcap ⊢; omega, rfl⟩
  have hstart : { engineClear u.hyb with wid := u.wmax, st := widthBytes prefixed u.wmax } =
      ({ wid := u.wmax, st := widthBytes prefixed u.wmax } : HybridEnc) := by
    rw [engineClear, hfin]
  have hself : selfFinish p prefixed u = .ok { u with hyb := e₂ } := by
    refine bind_eq_ok.2 ⟨_, hstage, bind_eq_ok.2 ⟨e₁, ?_, bind_eq_ok.2 ⟨e₂, hfinish, rfl⟩⟩⟩
    rw [hstart]
    exact henc
  rw [selfUnitFinish, if_neg (by simp [hfin]), hself]
  rfl

/-- The finish of a unit with room for its values gives it the engine that unit 1 ends the same values with, behind the
width byte where there is one. -/
theorem selfUnitFinish_is_replay {s : State} {u : SelfEnc} {prefixed : Bool} (hrun : s.Running) (hinv : u.Inv s.params)
    (hfin : u.hyb.fin = false) (hcount : u.raw.length ≤ Config.maxRun)
    (hroom : Room s.params (widthBytes prefixed u.wmax) u.raw.length) :
    ∃ rs e, runCommands (.rst1 (BitVec.ofNat 8 u.wmax) 0 :: u.raw.map (fun x => .enc1 (x.setWidth 64)) ++ [.fin1 0]) s =
        some (rs, s.setE1 e) ∧
      selfUnitFinish s.params prefixed u = .ok { u with hyb := e.behind (widthBytes prefixed u.wmax) } := by
  obtain ⟨e, hreplay⟩ := replay_completes hinv.wmax_le hcount
  have hroom1 : Room s.params [] u.raw.length := by
    obtain ⟨hst, hpr⟩ := hroom
    exact ⟨by rw [List.length_nil]; omega, hpr⟩
  obtain ⟨henc1, hfinish1⟩ := hreplay s.params [] hroom1
  obtain ⟨henc, hfinish⟩ := hreplay s.params _ hroom
  obtain ⟨rs, hrs⟩ := runCommands_rst1 hrun hinv.wmax_le henc1 hfinish1
  exact ⟨rs, _, hrs, selfUnitFinish_ok hinv hfin hroom henc hfinish⟩

/-! ### The statement -/

theorem finishPair2 (arg : DWord) (s : State) :
    FinishPair s (.fin2 arg) (.wto2 arg) (selfUnitFinish s.params false s.e2) s.setE2 (·.e2.hyb.st) :=
  ⟨rfl, rfl, rfl, rfl, fun _ => ⟨rfl, rfl, rfl⟩⟩

theorem finishPair3 (arg : DWord) (s : State) :
    FinishPair s (.fin3 arg) (.wto3 arg) (selfUnitFinish s.params true s.e3) s.setE3 (·.e3.hyb.st) :=
  ⟨rfl, rfl, rfl, rfl, fun _ => ⟨rfl, rfl, rfl⟩⟩

/-- Settles O49: the replay on unit 1 and the finish of the unit run the same engine operations, which complete. -/
theorem selfWidthFinishIsReplayOnUnit1 : Obligations.SelfWidthFinishIsReplayOnUnit1 := by
  intro arg s hrun hadm replay room
  have hcount {u : SelfEnc} (hinv : u.Inv s.params) : u.raw.length ≤ Config.maxRun := by
    have hraw := hinv.raw
    have hcap : s.params.rawcap < 2 ^ 31 := by obtain ⟨-, -, -, -, -, -, -, -, -, h⟩ := hadm; exact h
    have hmax : Config.maxRun = 2 ^ 31 - 1 := rfl
    omega
  have hroom {u : SelfEnc} (h : room u) (prefixed : Bool) :
      Room s.params (widthBytes prefixed u.wmax) u.raw.length := by
    obtain ⟨hst, hpr⟩ := h
    have hlen := widthBytes_length_le prefixed u.wmax
    exact ⟨by omega, hpr⟩
  constructor
  · intro hinv hfin hfits
    obtain ⟨rs, e, hrs, hunit⟩ := selfUnitFinish_is_replay hrun hinv hfin (hcount hinv) (hroom hfits false)
    have hpair := finishPair2 arg s
    exact ⟨rs, s.setE1 e, hrs, hpair.completes hrun hunit, (hpair.appends hrun hunit).1⟩
  · intro hinv hfin hfits
    obtain ⟨rs, e, hrs, hunit⟩ := selfUnitFinish_is_replay hrun hinv hfin (hcount hinv) (hroom hfits true)
    have hpair := finishPair3 arg s
    exact ⟨rs, s.setE1 e, _, hrs, rfl, hpair.completes hrun hunit, (hpair.appends hrun hunit).1⟩

end Sys2Proof.Machine
end

section
/-! PROOFS. The run decoder of units 1 and 3 (rules R261 to R265): what one pass of its search does in each branch,
that the search goes on after a pass without a value, and what `DEC.1`, `DEC.3` and `DINIT.3` make of it. -/

namespace Sys2Proof.Machine

/-! ### One pass, branch by branch (rule R261) -/

section Pass
variable {m : Memory} {d : HybridDec} {h : Word} {c : Cursor}

theorem rlePass_in_run (hmode : d.mode = .rle) (hrem : 0 < d.rem) :
    rlePass m d = .ok (some d.val, { d with rem := d.rem - 1 }) :=
  if_pos ⟨hmode, hrem⟩

theorem rlePass_in_octuplet (hmode : d.mode = .packed) (hopos : d.opos < 8) :
    rlePass m d = .ok (some (d.oct.getD d.opos 0), { d with opos := d.opos + 1 }) := by
  rw [rlePass, if_neg (by simp [hmode]), if_pos ⟨hmode, hopos⟩]

/-- The branch that loads the next octuplet of a bit-packed run. -/
theorem rlePass_at_load (hmode : d.mode = .packed) (hopos : 8 ≤ d.opos) (hrem : 0 < d.rem) :
    rlePass m d = (take m d.csr d.wid >>= fun x => .ok (none,
      { d with csr := x.2, oct := (unpack x.1 d.wid 8).map (BitVec.ofNat 32), opos := 0, rem := d.rem - 1 })) := by
  rw [rlePass, if_neg (by simp [hmode]), if_neg (by omega), if_pos ⟨hmode, hrem⟩]

theorem rlePass_load (hmode : d.mode = .packed) (hopos : 8 ≤ d.opos) (hrem : 0 < d.rem)
    (hin : d.csr.pos.toNat + d.wid ≤ d.csr.lim.toNat) :
    rlePass m d = .ok (none, { d with csr := d.csr.advance d.wid, oct := octupletAt m d.csr.pos.toNat d.wid,
                                      opos := 0, rem := d.rem - 1 }) := by
  rw [rlePass_at_load hmode hopos hrem]
  exact bind_eq_ok.2 ⟨_, take_eq_ok.2 ⟨hin, rfl⟩, rfl⟩

theorem rlePass_load_past (hmode : d.mode = .packed) (hopos : 8 ≤ d.opos) (hrem : 0 < d.rem)
    (hout : d.csr.lim.toNat < d.csr.pos.toNat + d.wid) : rlePass m d = .error .readPastEnd := by
  rw [rlePass_at_load hmode hopos hrem]
  exact bind_eq_error.2 (.inl (take_eq_error.2 ⟨hout, rfl⟩))

/-- The branch that reads a header, and the value of an RLE run behind it. -/
theorem rlePass_at_header (hhead : d.AtHeader) :
    rlePass m d = (readVarint 32 m d.csr >>= fun x =>
      if x.1.toNat % 2 = 1 then
        .ok (none, { d with csr := x.2, mode := .packed, rem := x.1.toNat / 2, opos := 8 })
      else take m x.2 (bytesFor d.wid) >>= fun y =>
        .ok (none, { d with csr := y.2, mode := .rle, rem := x.1.toNat / 2,
                            val := BitVec.ofNat 32 ((unpack y.1 d.wid 1).headD 0) })) := by
  obtain ⟨hrle, hpacked⟩ := hhead
  have hrun : ¬(d.mode = .rle ∧ 0 < d.rem) := fun ⟨hmode, hrem⟩ => by have := hrle hmode; omega
  have hoct : ¬(d.mode = .packed ∧ d.opos < 8) := fun ⟨hmode, hopos⟩ => by have := hpacked hmode; omega
  have hload : ¬(d.mode = .packed ∧ 0 < d.rem) := fun ⟨hmode, hrem⟩ => by have := hpacked hmode; omega
  rw [rlePass, if_neg hrun, if_neg hoct, if_neg hload]

theorem rlePass_header_fault {code : FaultCode} (hhead : d.AtHeader) (hread : readVarint 32 m d.csr = .error code) :
    rlePass m d = .error code := by
  rw [rlePass_at_header hhead]
  exact bind_eq_error.2 (.inl hread)

theorem rlePass_packed_header (hhead : d.AtHeader) (hread : readVarint 32 m d.csr = .ok (h, c))
    (hodd : h.toNat % 2 = 1) :
    rlePass m d = .ok (none, { d with csr := c, mode := .packed, rem := h.toNat / 2, opos := 8 }) := by
  rw [rlePass_at_header hhead]
  exact bind_eq_ok.2 ⟨_, hread, if_pos hodd⟩

theorem rlePass_rle_header (hhead : d.AtHeader) (hread : readVarint 32 m d.csr = .ok (h, c))
    (heven : h.toNat % 2 = 0) (hin : c.pos.toNat + bytesFor d.wid ≤ c.lim.toNat) :
    rlePass m d = .ok (none, { d with csr := c.advance (bytesFor d.wid), mode := .rle, rem := h.toNat / 2,
                                      val := runValueAt m c.pos.toNat d.wid }) := by
  rw [rlePass_at_header hhead]
  have hrle : ¬h.toNat % 2 = 1 := by omega
  exact bind_eq_ok.2 ⟨_, hread, (if_neg hrle).trans (bind_eq_ok.2 ⟨_, take_eq_ok.2 ⟨hin, rfl⟩, rfl⟩)⟩

theorem rlePass_rle_header_past (hhead : d.AtHeader) (hread : readVarint 32 m d.csr = .ok (h, c))
    (heven : h.toNat % 2 = 0) (hout : c.lim.toNat < c.pos.toNat + bytesFor d.wid) :
    rlePass m d = .error .readPastEnd := by
  rw [rlePass_at_header hhead]
  have hrle : ¬h.toNat % 2 = 1 := by omega
  have htake := take_eq_error (m := m).2 ⟨hout, rfl⟩
  exact bind_eq_error.2 (.inr ⟨_, hread, (if_neg hrle).trans (bind_eq_error.2 (.inl htake))⟩)

end Pass

/-! ### The search, pass by pass (rule R261) -/

/-- Turns of the loop that are enough from `d` on: one where a loaded octuplet holds the value, else the count that
`rleNext` starts with. -/
def HybridDec.turns (d : HybridDec) : Nat :=
  if d.mode = .packed ∧ d.opos < 8 then 1 else d.csr.lim.toNat - d.csr.pos.toNat + 3

theorem HybridDec.turns_of_loaded {d : HybridDec} (hmode : d.mode = .packed) (hopos : d.opos < 8) : d.turns = 1 :=
  if_pos ⟨hmode, hopos⟩

theorem HybridDec.turns_of_not_loaded {d : HybridDec} (h : d.mode = .packed → 8 ≤ d.opos) :
    d.turns = d.csr.lim.toNat - d.csr.pos.toNat + 3 :=
  if_neg fun ⟨hmode, hopos⟩ => Nat.not_lt.2 (h hmode) hopos

theorem HybridDec.turns_pos (d : HybridDec) : 0 < d.turns := by
  unfold HybridDec.turns
  split <;> omega

theorem HybridDec.turns_le (d : HybridDec) : d.turns ≤ d.csr.lim.toNat - d.csr.pos.toNat + 3 := by
  unfold HybridDec.turns
  split <;> omega

/-- Where no value is loaded, fewer bytes left need fewer turns. -/
theorem HybridDec.turns_lt_of_moved {d d' : HybridDec} (h : d.mode = .packed → 8 ≤ d.opos)
    (hmoved : d.csr.Moved d'.csr) (hlt : d.csr.pos.toNat < d'.csr.pos.toNat) : d'.turns < d.turns := by
  obtain ⟨hlim, -, hle⟩ := hmoved
  have hturns := d'.turns_le
  rw [hlim] at hturns
  rw [HybridDec.turns_of_not_loaded h]
  omega

/-- A pass without a value brings the search nearer its end: an octuplet is loaded, or a header's bytes are gone. -/
theorem rlePass_none_turns_lt {m : Memory} {d d' : HybridDec} (hpass : rlePass m d = .ok (none, d')) :
    d'.turns < d.turns := by
  rcases rlePass_eq_ok hpass with ⟨-, -, hx, -⟩ | ⟨-, -, hx, -⟩ | ⟨hmode, hopos, -, -, b, c, -, rfl⟩ |
    ⟨-, hpacked, -, h, c, hread, hrun⟩
  · cases hx
  · cases hx
  · refine lt_of_eq_of_lt (HybridDec.turns_of_loaded hmode (Nat.succ_pos 7)) ?_
    rw [HybridDec.turns_of_not_loaded fun _ => hopos]
    omega
  · have hopos (hmode : d.mode = .packed) := (hpacked hmode).1
    obtain ⟨hmoved, hlt⟩ := readVarint_moved (by decide) hread
    rcases hrun with ⟨-, rfl⟩ | ⟨-, b, c', htake, rfl⟩
    · exact HybridDec.turns_lt_of_moved hopos hmoved hlt
    · have hvalue := (take_moved htake).1
      exact HybridDec.turns_lt_of_moved hopos (hmoved.trans hvalue) (lt_of_lt_of_le hlt hvalue.2.1)

/-- Turns beyond those that are enough change nothing. -/
theorem rleLoop_eq_of_turns_le {m : Memory} : ∀ {f g : Nat} {d : HybridDec}, d.turns ≤ f → d.turns ≤ g →
    rleLoop m f d = rleLoop m g d
  | 0, _, d, hf, _ => absurd d.turns_pos (by omega)
  | _ + 1, 0, d, _, hg => absurd d.turns_pos (by omega)
  | f + 1, g + 1, d, hf, hg => by
    rw [rleLoop, rleLoop]
    cases hpass : rlePass m d with
    | error code => rfl
    | ok x =>
      obtain ⟨v, d'⟩ := x
      cases v with
      | some v => rfl
      | none =>
        have hlt := rlePass_none_turns_lt hpass
        exact rleLoop_eq_of_turns_le (by omega) (by omega)

section Search
variable {m : Memory} {d d' : HybridDec}

theorem rleNext_of_some {v : Word} (hpass : rlePass m d = .ok (some v, d')) : rleNext m d = .ok (v, d') :=
  rleLoop_succ.2 ⟨_, _, hpass, .inl ⟨v, rfl, rfl⟩⟩

theorem rleNext_of_error {code : FaultCode} (hpass : rlePass m d = .error code) : rleNext m d = .error code := by
  rw [rleNext, rleLoop, hpass]
  rfl

/-- After a pass without a value the search is the search from where the pass ended. -/
theorem rleNext_of_none (hpass : rlePass m d = .ok (none, d')) : rleNext m d = rleNext m d' := by
  have hlt := rlePass_none_turns_lt hpass
  have hle := d.turns_le
  calc rleNext m d = rleLoop m (d.csr.lim.toNat - d.csr.pos.toNat + 2) d' := by rw [rleNext, rleLoop, hpass]; rfl
    _ = rleNext m d' := rleLoop_eq_of_turns_le (by omega) d'.turns_le

/-- The search that loads an octuplet answers its first value. -/
theorem rleNext_load (hmode : d.mode = .packed) (hopos : 8 ≤ d.opos) (hrem : 0 < d.rem)
    (hin : d.csr.pos.toNat + d.wid ≤ d.csr.lim.toNat) :
    rleNext m d = .ok ((octupletAt m d.csr.pos.toNat d.wid).getD 0 0,
      { d with csr := d.csr.advance d.wid, oct := octupletAt m d.csr.pos.toNat d.wid, opos := 1, rem := d.rem - 1 }) := by
  rw [rleNext_of_none (rlePass_load hmode hopos hrem hin)]
  exact rleNext_of_some (rlePass_in_octuplet hmode (Nat.succ_pos 7))

theorem rleNext_of_yields {v : Word} (hyields : HybridYields m d v d') : rleNext m d = .ok (v, d') := by
  rcases hyields with ⟨hmode, hrem, rfl, rfl⟩ | ⟨hmode, hopos, rfl, rfl⟩ | ⟨hmode, hopos, hrem, hin, rfl, rfl⟩ |
    ⟨hhead, h, c, hread, hrem, hodd, hin, rfl, rfl⟩ | ⟨hhead, h, c, hread, hrem, heven, hin, rfl, rfl⟩
  · exact rleNext_of_some (rlePass_in_run hmode hrem)
  · exact rleNext_of_some (rlePass_in_octuplet hmode hopos)
  · exact rleNext_load hmode hopos hrem hin
  · rw [rleNext_of_none (rlePass_packed_header hhead hread hodd)]
    exact rleNext_load rfl (Nat.le_refl 8) hrem hin
  · rw [rleNext_of_none (rlePass_rle_header hhead hread heven hin)]
    exact rleNext_of_some (rlePass_in_run rfl hrem)

end Search

/-! ### A value found fits the width (rules R38, R261) -/

/-- A cut of `w` bits of the stream, as a word, is below `2^w`. -/
theorem toNat_ofNat_mod_lt (x w : Nat) : (BitVec.ofNat 32 (x % 2 ^ w)).toNat < 2 ^ w := by
  rw [BitVec.toNat_ofNat]
  exact lt_of_le_of_lt (Nat.mod_le _ _) (Nat.mod_lt x (Nat.two_pow_pos w))

theorem toNat_lt_of_mem_unpackSum {w : Nat} {y : Word} : ∀ {n x : Nat},
    y ∈ (unpackSum w n x).map (BitVec.ofNat 32) → y.toNat < 2 ^ w
  | 0, _, h => by cases h
  | n + 1, x, h => by
    rcases List.mem_cons.1 h with rfl | h
    · exact toNat_ofNat_mod_lt x w
    · exact toNat_lt_of_mem_unpackSum h

theorem Cursor.Moved.within {c c' : Cursor} {limit : Word} (hmoved : c.Moved c') (h : c.Within limit) :
    c'.Within limit := by
  obtain ⟨hlim, -, hle⟩ := hmoved
  obtain ⟨-, hlimit⟩ := h
  rw [Cursor.Within, hlim]
  exact ⟨hle, hlimit⟩

/-- Every pass keeps the invariant of a hybrid decoder (rule R38). -/
theorem rlePass_keeps_inv {m : Memory} {d d' : HybridDec} {limit : Word} {x : Option Word} (hinv : d.Inv limit)
    (hpass : rlePass m d = .ok (x, d')) : d'.Inv limit := by
  obtain ⟨hcursor, hwidth, hrem, hval, hopos, hloaded⟩ := hinv
  rcases rlePass_eq_ok hpass with ⟨-, -, -, rfl⟩ | ⟨-, hlt, -, rfl⟩ | ⟨-, -, -, -, b, c, htake, rfl⟩ |
    ⟨-, -, -, h, c, hread, hrun⟩
  · exact ⟨hcursor, hwidth, lt_of_le_of_lt (Nat.sub_le _ _) hrem, hval, hopos, hloaded⟩
  · exact ⟨hcursor, hwidth, hrem, hval, hlt, fun _ => hloaded hlt⟩
  · refine ⟨fun hact => (take_moved htake).1.within (hcursor hact), hwidth, lt_of_le_of_lt (Nat.sub_le _ _) hrem, hval,
      Nat.zero_le 8, fun _ => ⟨?_, fun y hy => toNat_lt_of_mem_unpackSum hy⟩⟩
    rw [List.length_map, unpack_length]
  · have hcount : h.toNat / 2 < 2 ^ 31 := by have := h.isLt; omega
    have hbehind := (readVarint_moved (by decide) hread).1
    rcases hrun with ⟨-, rfl⟩ | ⟨-, b, c', htake, rfl⟩
    · exact ⟨fun hact => hbehind.within (hcursor hact), hwidth, hcount, hval, Nat.le_refl 8,
        fun hlt => absurd hlt (Nat.lt_irrefl 8)⟩
    · exact ⟨fun hact => (hbehind.trans (take_moved htake).1).within (hcursor hact), hwidth, hcount,
        toNat_ofNat_mod_lt (leVal b) d.wid, hopos, hloaded⟩

/-- What a pass yields is the run's value or an element of the loaded octuplet, and both fit the width. -/
theorem rlePass_value_fits {m : Memory} {d d' : HybridDec} {limit v : Word} (hinv : d.Inv limit)
    (hpass : rlePass m d = .ok (some v, d')) : v.toNat < 2 ^ d.wid := by
  rcases rlePass_eq_ok hpass with ⟨-, -, hx, -⟩ | ⟨-, hopos, hx, -⟩ | ⟨-, -, -, hx, -⟩ | ⟨-, -, hx, -⟩
  · injection hx with hx
    rw [hx]
    exact hinv.val
  · injection hx with hx
    obtain ⟨hlen, hfits⟩ := hinv.loaded hopos
    rw [hx, List.getD_eq_getElem _ _ (hlen.symm ▸ hopos)]
    exact hfits _ (List.getElem_mem _)
  · cases hx
  · cases hx

theorem rleLoop_value_fits {m : Memory} {limit v : Word} : ∀ {fuel : Nat} {d d' : HybridDec}, d.Inv limit →
    rleLoop m fuel d = .ok (v, d') → v.toNat < 2 ^ d.wid
  | 0, _, _, _, h => by cases h
  | fuel + 1, d, d', hinv, h => by
    obtain ⟨x, d₁, hpass, (⟨w, rfl, hr⟩ | ⟨rfl, hloop⟩)⟩ := rleLoop_succ.1 h
    · injection hr with hv _
      rw [hv]
      exact rlePass_value_fits hinv hpass
    · obtain ⟨-, hwid⟩ := rlePass_same hpass
      rw [← hwid]
      exact rleLoop_value_fits (rlePass_keeps_inv hinv hpass) hloop

/-! ### `DEC.1` and `DEC.3` (rules R263, R265) -/

/-- A decode command of a running block on the hybrid decoder `d`: what the search finds goes to the state `put` makes
of it, what it raises is the command's fault, and a decoder not constructed raises its own. -/
theorem exec_of_rleNext {i : Instr} {s : State} {d : HybridDec} {put : Word × HybridDec → State} (hrun : s.Running)
    (hwf : i.wf = true)
    (hexec : exec i s = command i s
      (if d.act then rleNext s.ib d >>= fun x => .ok (put x) else .error .decoderNotInitialised)) :
    (d.act = false → exec i s = .next (enterFault .decoderNotInitialised (encode i) s)) ∧
    (d.act = true → ∀ v d', rleNext s.ib d = .ok (v, d') → exec i s = .next (put (v, d'))) ∧
    (d.act = true → ∀ code, rleNext s.ib d = .error code → exec i s = .next (enterFault code (encode i) s)) := by
  refine ⟨fun hact => ?_, fun hact v d' hnext => ?_, fun hact code hnext => ?_⟩ <;> rw [hexec]
  · exact command_error hrun hwf (if_neg (by simp [hact]))
  · exact command_ok hrun hwf ((if_pos hact).trans (bind_eq_ok.2 ⟨_, hnext, rfl⟩))
  · exact command_error hrun hwf ((if_pos hact).trans (bind_eq_error.2 (.inl hnext)))

/-- Settles O51: each branch is a pass of the search, and the search after a pass without a value is the search from
where it ended. -/
theorem hybridDecodeResults : Obligations.HybridDecodeResults := by
  refine ⟨fun m d v d' => rleNext_of_yields, fun m d h c hhead hread => ⟨fun hone => ?_, fun hzero hin => ?_⟩,
    fun m d code hhead hread => rleNext_of_error (rlePass_header_fault hhead hread),
    fun m d h c hhead hread => ⟨fun hodd hrem hout => ?_, fun heven hout => ?_⟩,
    fun m d hmode hopos hrem hout => rleNext_of_error (rlePass_load_past hmode hopos hrem hout),
    fun m d d' v limit hinv => rleLoop_value_fits hinv, fun arg s hrun => ?_⟩
  · subst hone
    exact rleNext_of_none (rlePass_packed_header hhead hread rfl)
  · subst hzero
    exact rleNext_of_none (rlePass_rle_header hhead hread rfl hin)
  · rw [rleNext_of_none (rlePass_packed_header hhead hread hodd)]
    exact rleNext_of_error (rlePass_load_past rfl (Nat.le_refl 8) hrem hout)
  · exact rleNext_of_error (rlePass_rle_header_past hhead hread heven hout)
  · obtain ⟨hidle1, hfound1, hfault1⟩ := exec_of_rleNext (i := .dec1 arg) (d := s.d1)
      (put := fun x => (s.setD1 x.2).setR (zext64 x.1)) hrun rfl rfl
    obtain ⟨hidle3, hfound3, hfault3⟩ := exec_of_rleNext (i := .dec3 arg) (d := s.d3)
      (put := fun x => (s.setD3 x.2).setR (zext64 x.1)) hrun rfl rfl
    exact ⟨hidle1, hidle3, fun hact v d' hyields => hfound1 hact v d' (rleNext_of_yields hyields), hfound1, hfault1,
      fun hact v d' hyields => hfound3 hact v d' (rleNext_of_yields hyields), hfound3, hfault3⟩

/-! ### `DINIT.3` (rule R264) -/

section Construction
variable {m : Memory} {d : HybridDec} {c : Cursor}

theorem hybridInitPrefixed_of_width (hin : c.pos.toNat + 1 ≤ c.lim.toNat) (hwidth : (m.read c.pos.toNat).toNat ≤ 32) :
    hybridInitPrefixed m d c = .ok (hybridInit d (c.advance 1) (m.read c.pos.toNat).toNat) :=
  bind_eq_ok.2 ⟨_, takeByte_eq_ok.2 ⟨hin, rfl⟩, if_neg (Nat.not_lt.2 hwidth)⟩

theorem hybridInitPrefixed_badWidth (hin : c.pos.toNat + 1 ≤ c.lim.toNat) (hwidth : 32 < (m.read c.pos.toNat).toNat) :
    hybridInitPrefixed m d c = .error .badWidth :=
  bind_eq_error.2 (.inr ⟨_, takeByte_eq_ok.2 ⟨hin, rfl⟩, if_pos hwidth⟩)

theorem hybridInitPrefixed_past (hout : c.lim.toNat < c.pos.toNat + 1) :
    hybridInitPrefixed m d c = .error .readPastEnd :=
  bind_eq_error.2 (.inl (takeByte_eq_error.2 ⟨hout, rfl⟩))

end Construction

/-- Settles O50: the width byte taken and within 32, above it, or not there to take. -/
theorem prefixedDecoderConstruction : Obligations.PrefixedDecoderConstruction := by
  intro arg s hrun y
  refine ⟨fun hin hwidth => ?_, fun hin hwidth => ?_, fun hout => ?_⟩
  · exact command_ok hrun rfl (bind_eq_ok.2 ⟨_, hybridInitPrefixed_of_width hin hwidth, rfl⟩)
  · exact command_error hrun rfl (bind_eq_error.2 (.inl (hybridInitPrefixed_badWidth hin hwidth)))
  · exact command_error hrun rfl (bind_eq_error.2 (.inl (hybridInitPrefixed_past hout)))

end Sys2Proof.Machine
end

section
/-! PROOFS. The block the delta encoder writes (rules R281 to R287, R303): the first of the shortest serialisations
over the candidate mini-block sizes, and how long a serialisation is. -/

namespace Sys2Proof.Machine

/-! ### The block size and its candidates (rules R281, R287) -/

/-- A block size is 0 or one of five powers of two (rule R281). -/
theorem blockSize_mem (n : Nat) : blockSize n ∈ [0, 8, 16, 32, 64, 128] := by
  unfold blockSize
  repeat' split
  all_goals decide

/-- No listed size that holds the deltas is smaller than the block size (rule R281). -/
theorem blockSize_le_of_mem {n b : Nat} (hb : b ∈ [0, 8, 16, 32, 64, 128]) (hn : n ≤ b) : blockSize n ≤ b := by
  simp only [List.mem_cons, List.not_mem_nil, or_false] at hb
  unfold blockSize
  repeat' split
  all_goals omega

theorem mem_candidates {m bs : Nat} : m ∈ candidates bs ↔ m ∈ [8, 16, 32, 64, 128] ∧ m ≤ bs := by
  rw [candidates, List.mem_filter, decide_eq_true_iff]

theorem candidates_pairwise (bs : Nat) : (candidates bs).Pairwise (· < ·) :=
  List.Pairwise.filter _ (by decide)

/-- A candidate cuts the block size into at most 16 mini-blocks of whole octuplets (rule R321 checks this). -/
theorem candidate_divides {n m : Nat} (hm : m ∈ candidates (blockSize n)) :
    8 ∣ m ∧ 0 < m ∧ m ∣ blockSize n ∧ blockSize n / m ≤ 16 ∧ 0 < blockSize n / m := by
  have hall : ∀ bs ∈ [0, 8, 16, 32, 64, 128], ∀ m ∈ candidates bs,
      8 ∣ m ∧ 0 < m ∧ m ∣ bs ∧ bs / m ≤ 16 ∧ 0 < bs / m := by decide
  exact hall _ (blockSize_mem n) m hm

/-! ### The search keeps the first of the shortest (rule R287) -/

/-- Over rising sizes, the serialisation kept is the first of the shortest. -/
theorem foldl_keepShorter_first {f : Nat → Bytes} : ∀ {ms : List Nat} {m : Nat}, (m :: ms).Pairwise (· < ·) →
    ∃ k ∈ m :: ms, (ms.map f).foldl keepShorter (some (f m)) = some (f k) ∧
      ∀ k' ∈ m :: ms, (f k).length ≤ (f k').length ∧ (k' < k → (f k).length < (f k').length)
  | [], m, _ => ⟨m, List.mem_singleton_self m, rfl, fun k' hk' => by
      rw [List.mem_singleton.1 hk']
      exact ⟨le_rfl, fun h => absurd h (Nat.lt_irrefl m)⟩⟩
  | a :: ms, m, hsorted => by
    obtain ⟨hm, htail⟩ := List.pairwise_cons.1 hsorted
    obtain ⟨ha, hms⟩ := List.pairwise_cons.1 htail
    have hma := hm a List.mem_cons_self
    rw [List.map_cons, List.foldl_cons, keepShorter]
    by_cases hlt : (f a).length < (f m).length
    · obtain ⟨k, hk, heq, hfirst⟩ := foldl_keepShorter_first (f := f) htail
      rw [if_pos hlt]
      refine ⟨k, List.mem_cons_of_mem m hk, heq, fun k' hk' => ?_⟩
      rcases List.mem_cons.1 hk' with rfl | hk'
      · have hka := (hfirst a List.mem_cons_self).1
        exact ⟨by omega, fun _ => by omega⟩
      · exact hfirst k' hk'
    · obtain ⟨k, hk, heq, hfirst⟩ := foldl_keepShorter_first (f := f) (ms := ms) (m := m)
        (List.pairwise_cons.2 ⟨fun x hx => hm x (List.mem_cons_of_mem a hx), hms⟩)
      rw [if_neg hlt]
      obtain ⟨hkm, hkm'⟩ := hfirst m List.mem_cons_self
      refine ⟨k, ?_, heq, fun k' hk' => ?_⟩
      · rcases List.mem_cons.1 hk with rfl | hk
        · exact List.mem_cons_self
        · exact List.mem_cons_of_mem m (List.mem_cons_of_mem a hk)
      · rcases List.mem_cons.1 hk' with rfl | hk'
        · exact ⟨hkm, hkm'⟩
        · rcases List.mem_cons.1 hk' with rfl | hk'
          · exact ⟨by omega, fun hlt' => by have := hkm' (by omega); omega⟩
          · exact hfirst k' (List.mem_cons_of_mem m hk')

/-- The block of two or more values is the first of the shortest candidates (rule R287). -/
theorem bestBlock_eq_serialize {w : Nat} {vals : List Int} (h2 : 2 ≤ vals.length) (hmax : vals.length ≤ 129) :
    ∃ m ∈ candidates (blockSize (vals.length - 1)), bestBlock w vals = serialize w vals m ∧
      ∀ m' ∈ candidates (blockSize (vals.length - 1)), (serialize w vals m).length ≤ (serialize w vals m').length ∧
        (m' < m → (serialize w vals m).length < (serialize w vals m').length) := by
  obtain ⟨-, -, hmem⟩ := blockSize_spec (n := vals.length - 1) (by omega) (by omega)
  have hsorted := candidates_pairwise (blockSize (vals.length - 1))
  rw [bestBlock, if_neg (by omega)]
  cases hcs : candidates (blockSize (vals.length - 1)) with
  | nil => rw [hcs] at hmem; cases hmem
  | cons c cs =>
    rw [hcs] at hsorted
    obtain ⟨m, hm, heq, hfirst⟩ := foldl_keepShorter_first (f := serialize w vals) hsorted
    exact ⟨m, hm, by rw [List.map_cons, List.foldl_cons, keepShorter, heq, Option.getD_some], hfirst⟩

/-- The block of one value (rule R285). -/
theorem bestBlock_singleton {w : Nat} (v : BitVec w) :
    bestBlock w [v.toInt] = varint 0 ++ varint 0 ++ varint 1 ++ varint (zigzag v).toNat := by
  rw [bestBlock, if_pos List.length_singleton, serialize1, List.headD_cons, BitVec.ofInt_toInt]

/-! ### The mini-blocks (rule R283) -/

/-- Mini-block `j` holds the values from `j * m` on, `m` of them or the rest. -/
theorem miniBlocks_eq (m : Nat) : ∀ (mc : Nat) (rels : List Nat),
    miniBlocks m rels mc = (List.range mc).map fun j => (rels.drop (j * m)).take m
  | 0, _ => rfl
  | mc + 1, rels => by
    rw [miniBlocks, miniBlocks_eq m mc, List.range_succ_eq_map, List.map_cons, List.map_map, Nat.zero_mul,
      List.drop_zero]
    simp only [Function.comp_def, List.drop_drop, Nat.succ_mul, Nat.add_comm m]

@[simp] theorem miniBlocks_length (m : Nat) (rels : List Nat) (mc : Nat) : (miniBlocks m rels mc).length = mc := by
  rw [miniBlocks_eq, List.length_map, List.length_range]

/-- The length of a serialisation: its header fields, a width byte a mini-block, and the packed mini-blocks. -/
theorem serialize_length (w : Nat) (vals : List Int) (m : Nat) :
    (serialize w vals m).length =
      varlen (blockSize (vals.length - 1)) + varlen (blockSize (vals.length - 1) / m) + varlen vals.length +
        varlen (zigzag (BitVec.ofInt w (vals.headD 0))).toNat + varlen (zigzag (storedMin vals)).toNat +
        blockSize (vals.length - 1) / m +
        ((miniBlocks m (storedRels vals) (blockSize (vals.length - 1) / m)).map fun xs =>
          (xs.length * miniWidth xs + 7) / 8).sum := by
  simp only [serialize, List.length_append, List.length_map, List.length_flatten, List.map_map, Function.comp_def,
    varint_length, miniBlocks_length, pack_length]

/-! ### The statements -/

/-- Settles O55: the size is the least that fits, the search over rising sizes keeps the first of the shortest, and
one value has its own block. -/
theorem blockSearchIsMinimal : Obligations.BlockSearchIsMinimal := by
  refine ⟨fun n hn => ⟨blockSize_mem n, ?_, fun b => blockSize_le_of_mem⟩, fun w v => bestBlock_singleton v,
    fun w vals h2 hmax => ?_⟩
  · rcases Nat.eq_zero_or_pos n with rfl | hpos
    · exact Nat.zero_le _
    · exact (blockSize_spec hpos hn).1
  · obtain ⟨m, hm, heq, hfirst⟩ := bestBlock_eq_serialize (w := w) h2 hmax
    obtain ⟨hsize, hle⟩ := mem_candidates.1 hm
    exact ⟨m, hsize, hle, heq, fun m' hm' hle' => hfirst m' (mem_candidates.2 ⟨hm', hle'⟩)⟩

/-- Settles O56: each mini-block is a slice of the stored relative deltas, and its packed length goes by the slice. -/
theorem serializedBlockLength : Obligations.SerializedBlockLength := by
  intro w vals m h2 hmax hm hle n bs rels held
  refine ⟨storedRels_length vals, fun j => ?_, ?_⟩
  · have hslice : (held j).length = min m (n - j * m) := by
      rw [List.length_take, List.length_drop, storedRels_length]
    rw [hslice, Nat.succ_mul]
    omega
  · rw [serialize_length, miniBlocks_eq, List.map_map]
    rfl

end Sys2Proof.Machine
end

section
/-! PROOFS. The commands of the delta encoder (rules R288 to R291, R295 to R297, R301): what buffering a value, the
lookahead and the finish answer in each of their branches, and what the commands of units 4 and 5 make of it. -/

namespace Sys2Proof.Machine

section Encoder
variable {w cap : Nat} {e : DeltaEnc w} {v : BitVec w}

/-! ### Buffering a value (rule R290) -/

theorem deltaBuffer_of_room (hroom : e.vb.length ≠ 129) :
    deltaBuffer cap e v = .ok { e with vb := e.vb ++ [v] } :=
  deltaBuffer_eq_ok.2 ⟨e, flushFull_eq_ok.2 (.inl ⟨hroom, rfl⟩), rfl⟩

/-- The 130th value closes the block of the 129 before it and starts the next. -/
theorem deltaBuffer_of_full (hfull : e.vb.length = 129)
    (hfits : e.st.length + (bestBlock w (bufferedVals e.vb)).length ≤ cap) :
    deltaBuffer cap e v = .ok ⟨e.st ++ bestBlock w (bufferedVals e.vb), e.fin, [v]⟩ :=
  deltaBuffer_eq_ok.2 ⟨_, flushFull_eq_ok.2 (.inr ⟨hfull, hfits, rfl⟩), rfl⟩

theorem deltaBuffer_of_full_over (hfull : e.vb.length = 129)
    (hover : cap < e.st.length + (bestBlock w (bufferedVals e.vb)).length) :
    deltaBuffer cap e v = .error .capacity := by
  have hne : e.vb ≠ [] := List.ne_nil_of_length_pos (by omega)
  have hflush : flushFull cap e = .error .capacity := (if_pos hfull).trans (flushAll_eq_error.2 ⟨hne, hover, rfl⟩)
  exact bind_eq_error.2 (.inl hflush)

/-! ### The lookahead (rule R289) -/

theorem bufferedVals_take (vb : List (BitVec w)) (k : Nat) : (bufferedVals vb).take k = bufferedVals (vb.take k) :=
  List.map_take.symm

theorem bufferedVals_drop (vb : List (BitVec w)) (k : Nat) : (bufferedVals vb).drop k = bufferedVals (vb.drop k) :=
  List.map_drop.symm

/-- There are more than 8 deltas, and splitting the buffered values at the last full boundary of them takes strictly
fewer bytes than one block (rule R289). -/
def DeltaEnc.Gains (e : DeltaEnc w) : Prop :=
  let k := splitPoint (e.vb.length - 1)
  8 < e.vb.length - 1 ∧ (bestBlock w (bufferedVals (e.vb.take k))).length +
    (bestBlock w (bufferedVals (e.vb.drop k))).length < (bestBlock w (bufferedVals e.vb)).length

/-- Without a strict gain the buffer stays. -/
theorem lookahead_of_not_gains (hgain : ¬e.Gains) : lookahead cap e = .ok e := by
  rw [DeltaEnc.Gains] at hgain
  simp only [lookahead, bufferedVals_take, bufferedVals_drop]
  split
  · next hmany => exact if_neg fun hless => hgain ⟨hmany, hless⟩
  · rfl

/-- On a strict gain the first part is staged. -/
theorem lookahead_of_gains (hgain : e.Gains) :
    lookahead cap e =
      (append cap e.st (bestBlock w (bufferedVals (e.vb.take (splitPoint (e.vb.length - 1))))) >>= fun st =>
        .ok { e with st := st, vb := e.vb.drop (splitPoint (e.vb.length - 1)) }) := by
  obtain ⟨hmany, hless⟩ := hgain
  simp only [lookahead, bufferedVals_take, bufferedVals_drop]
  rw [if_pos hmany, if_pos hless]

/-! ### The finish (rules R288, R291, R297) -/

/-- The staging buffer after a finish: an empty buffer adds nothing. -/
def DeltaEnc.closedStream (e : DeltaEnc w) : Bytes :=
  e.st ++ if e.vb = [] then [] else bestBlock w (bufferedVals e.vb)

theorem deltaFinish_of_fits (hfin : e.fin = false) (hfits : e.vb = [] ∨ e.closedStream.length ≤ cap) :
    deltaFinish cap e = .ok ⟨e.closedStream, true, []⟩ := by
  rw [deltaFinish, if_neg (by simp [hfin])]
  rw [DeltaEnc.closedStream] at hfits ⊢
  by_cases hempty : e.vb = []
  · rw [if_pos hempty, List.append_nil]
    exact bind_eq_ok.2 ⟨e, flushAll_eq_ok.2 (.inl ⟨hempty, rfl⟩), by rw [hempty]⟩
  · have hroom := hfits.resolve_left hempty
    rw [if_neg hempty, List.length_append] at hroom
    rw [if_neg hempty]
    exact bind_eq_ok.2 ⟨_, flushAll_eq_ok.2 (.inr ⟨hempty, hroom, rfl⟩), rfl⟩

theorem deltaFinish_of_over (hfin : e.fin = false) (hne : e.vb ≠ []) (hover : cap < e.closedStream.length) :
    deltaFinish cap e = .error .capacity := by
  rw [DeltaEnc.closedStream, if_neg hne, List.length_append] at hover
  rw [deltaFinish, if_neg (by simp [hfin])]
  exact bind_eq_error.2 (.inl (flushAll_eq_error.2 ⟨hne, hover, rfl⟩))

end Encoder

/-- The finish of a delta unit as its two commands show it: nothing on a finished unit, else the stream closed and
appended, or `CAPACITY` from both (rules R291, R295, R297, R301). -/
theorem FinishPair.delta_results {w : Nat} {e : DeltaEnc w} {s : State} {fin wto : Instr} {set : DeltaEnc w → State}
    {staged : State → Bytes} (h : FinishPair s fin wto (deltaFinish s.params.stcap e) set staged) (hrun : s.Running)
    (hstaged : ∀ e', staged (set e') = e'.st) (hset : set e = s) :
    (e.fin = true → exec fin s = .next s) ∧
    (e.fin = false → (e.vb = [] ∨ e.closedStream.length ≤ s.params.stcap) →
      exec fin s = .next (set ⟨e.closedStream, true, []⟩) ∧
      (s.ob.length + e.closedStream.length ≤ s.params.obcap →
        exec wto s = .next { set ⟨e.closedStream, true, []⟩ with ob := s.ob ++ e.closedStream })) ∧
    (e.fin = false → e.vb ≠ [] → s.params.stcap < e.closedStream.length →
      exec fin s = .next (enterFault .capacity (encode fin) s) ∧
      exec wto s = .next (enterFault .capacity (encode wto) s)) := by
  refine ⟨fun hfin => ?_, fun hfin hfits => ?_, fun hfin hne hover => ?_⟩
  · have hnext := h.completes hrun (if_pos hfin)
    rwa [hset] at hnext
  · have hx := deltaFinish_of_fits hfin hfits
    have happend := (h.appends hrun hx).1
    rw [hstaged] at happend
    exact ⟨h.completes hrun hx, happend⟩
  · exact h.faults hrun (deltaFinish_of_over hfin hne hover)

/-- `FIN.4` and `WTO.4` share one finish (rules R291, R295). -/
theorem finishPair4 (arg : DWord) (s : State) :
    FinishPair s (.fin4 arg) (.wto4 arg) (deltaFinish s.params.stcap s.e4) s.setE4 (·.e4.st) :=
  ⟨rfl, rfl, rfl, rfl, fun _ => ⟨rfl, rfl, rfl⟩⟩

/-- `FIN.5` and `WTO.5` share one finish (rules R297, R301). -/
theorem finishPair5 (arg : DWord) (s : State) :
    FinishPair s (.fin5 arg) (.wto5 arg) (deltaFinish s.params.stcap s.e5) s.setE5 (·.e5.st) :=
  ⟨rfl, rfl, rfl, rfl, fun _ => ⟨rfl, rfl, rfl⟩⟩

/-! ### `ENC.4` and `ENC.5` as their bodies (rules R290, R296) -/

theorem exec_enc4 {arg : DWord} {s : State} (hfin : s.e4.fin = false) :
    exec (.enc4 arg) s = command (.enc4 arg) s
      (deltaBuffer s.params.stcap s.e4 (argWord arg) >>= fun e => .ok (s.setE4 e)) :=
  congrArg (command (.enc4 arg) s) (if_neg (by simp [hfin]))

theorem exec_enc5 {arg : DWord} {s : State} (hfin : s.e5.fin = false) :
    exec (.enc5 arg) s = command (.enc5 arg) s
      (deltaBuffer s.params.stcap s.e5 arg >>= fun e => lookahead s.params.stcap e >>= fun e' => .ok (s.setE5 e')) :=
  congrArg (command (.enc5 arg) s) (if_neg (by simp [hfin]))

theorem exec_enc5_ok {arg : DWord} {s : State} {e e' : DeltaEnc 64} (hrun : s.Running) (hfin : s.e5.fin = false)
    (hbuffer : deltaBuffer s.params.stcap s.e5 arg = .ok e) (hlook : lookahead s.params.stcap e = .ok e') :
    exec (.enc5 arg) s = .next { s with e5 := e' } :=
  (exec_enc5 hfin).trans (command_ok hrun rfl (bind_eq_ok.2 ⟨e, hbuffer, bind_eq_ok.2 ⟨e', hlook, rfl⟩⟩))

/-! ### The statements -/

/-- Settles O52: the guard, then a buffer with room, or a full one closed first, with room for its block or without. -/
theorem deltaEncodeResult : Obligations.DeltaEncodeResult := by
  refine ⟨fun arg s hrun hfin => command_error hrun rfl (if_pos hfin), ?_⟩
  intro arg s hrun hfin v block
  rw [exec_enc4 hfin]
  refine ⟨fun hroom => ?room, fun hfull hfits => ?closes, fun hfull hover => ?past⟩
  case room => exact command_ok hrun rfl (bind_eq_ok.2 ⟨_, deltaBuffer_of_room hroom, rfl⟩)
  case closes =>
    rw [← hfin]
    exact command_ok hrun rfl (bind_eq_ok.2 ⟨_, deltaBuffer_of_full hfull hfits, rfl⟩)
  case past => exact command_error hrun rfl (bind_eq_error.2 (.inl (deltaBuffer_of_full_over hfull hover)))

/-- Settles O53: behind the buffering, which leaves one value where it closes a block, the lookahead with a gain or
without. -/
theorem deltaLookaheadEncodeResult : Obligations.DeltaLookaheadEncodeResult := by
  refine ⟨fun arg s hrun hfin => command_error hrun rfl (if_pos hfin), ?_⟩
  intro arg s hrun hfin block full vb n k gain
  have hbuffer (hroom : n ≠ 129) : deltaBuffer s.params.stcap s.e5 arg = .ok ⟨s.e5.st, false, vb⟩ := by
    rw [deltaBuffer_of_room hroom, hfin]
  have hcount : vb.length - 1 = n := by rw [List.length_append]; rfl
  have hgains : DeltaEnc.Gains ⟨s.e5.st, false, vb⟩ ↔ gain := by
    rw [DeltaEnc.Gains, hcount]
    rfl
  refine ⟨fun hfull hfits => ?closes, fun hfull hover => ?full, fun hroom hno => ?stays,
    fun hroom hgain hfits => ?splits, fun hroom hgain hover => ?splitFull⟩
  case closes =>
    have hclosed := deltaBuffer_of_full (v := arg) hfull hfits
    rw [hfin] at hclosed
    have hone : ¬DeltaEnc.Gains ⟨s.e5.st ++ block s.e5.vb, false, [arg]⟩ := fun h => absurd h.1 (Nat.not_lt_zero 8)
    exact exec_enc5_ok hrun hfin hclosed (lookahead_of_not_gains hone)
  case full =>
    exact (exec_enc5 hfin).trans
      (command_error hrun rfl (bind_eq_error.2 (.inl (deltaBuffer_of_full_over hfull hover))))
  case stays => exact exec_enc5_ok hrun hfin (hbuffer hroom) (lookahead_of_not_gains (mt hgains.1 hno))
  case splits =>
    have hlook := lookahead_of_gains (cap := s.params.stcap) (hgains.2 hgain)
    rw [hcount] at hlook
    exact exec_enc5_ok hrun hfin (hbuffer hroom)
      (hlook.trans (bind_eq_ok.2 ⟨_, append_eq_ok.2 ⟨hfits, rfl⟩, rfl⟩))
  case splitFull =>
    have hlook := lookahead_of_gains (cap := s.params.stcap) (hgains.2 hgain)
    rw [hcount] at hlook
    exact (exec_enc5 hfin).trans (command_error hrun rfl (bind_eq_error.2 (.inr ⟨_, hbuffer hroom,
      bind_eq_error.2 (.inl (hlook.trans (bind_eq_error.2 (.inl (append_eq_error.2 ⟨hover, rfl⟩)))))⟩)))

/-- Settles O54: the one finish of each unit, which its two commands share. -/
theorem deltaFinishResults : Obligations.DeltaFinishResults := by
  intro arg s hrun st4 st5
  obtain ⟨hdone4, hcloses4, hover4⟩ := (finishPair4 arg s).delta_results hrun (fun _ => rfl) rfl
  obtain ⟨hdone5, hcloses5, hover5⟩ := (finishPair5 arg s).delta_results hrun (fun _ => rfl) rfl
  exact ⟨hdone4, hdone5, hcloses4, hover4, hcloses5, hover5⟩

end Sys2Proof.Machine
end

section
/-! PROOFS. Reading back what lies ahead of a cursor (rules R9, R19): bytes written one behind the other are taken one
behind the other, and a varint that lies there reads back as its value. -/

namespace Sys2Proof.Machine

theorem Memory.readBytes_add (m : Memory) (j n : Nat) :
    ∀ a, m.readBytes a (j + n) = m.readBytes a j ++ m.readBytes (a + j) n := by
  induction j with
  | zero => intro a; rw [Nat.zero_add]; rfl
  | succ j ih =>
    intro a
    rw [Nat.succ_add, Memory.readBytes, Memory.readBytes, ih, Nat.add_assoc, Nat.add_comm 1, List.cons_append]

/-- The bytes `b` lie ahead of the cursor, within its limit. -/
structure Cursor.Ahead (c : Cursor) (m : Memory) (b : Bytes) : Prop where
  bytes : m.readBytes c.pos.toNat b.length = b
  within : c.pos.toNat + b.length ≤ c.lim.toNat

section Ahead
variable {c : Cursor} {m : Memory} {b b' : Bytes}

theorem Cursor.Ahead.read (h : c.Ahead m b) {k : Nat} (hk : k < b.length) : m.read (c.pos.toNat + k) = b.getD k 0 := by
  rw [← Memory.readBytes_getD m b.length _ _ hk, h.bytes]

/-- What lies ahead is its first part, and the rest ahead of the cursor moved over that. -/
theorem Cursor.Ahead.append (h : c.Ahead m (b ++ b')) : c.Ahead m b ∧ (c.advance b.length).Ahead m b' := by
  obtain ⟨hbytes, hin⟩ := h
  rw [List.length_append] at hbytes hin
  rw [Memory.readBytes_add] at hbytes
  obtain ⟨hfst, hsnd⟩ := List.append_inj hbytes (Memory.readBytes_length _ _ _)
  have hpos : (c.advance b.length).pos.toNat = c.pos.toNat + b.length := Cursor.advance_pos_toNat (.inr (by omega))
  exact ⟨⟨hfst, by omega⟩, by rw [hpos]; exact hsnd, by rw [hpos]; exact Nat.add_assoc _ _ _ ▸ hin⟩

/-- Taking the first part of what lies ahead. -/
theorem Cursor.Ahead.take (h : c.Ahead m (b ++ b')) :
    ∃ c', Machine.take m c b.length = .ok (b, c') ∧ c'.Ahead m b' ∧
      c'.advance b'.length = c.advance (b ++ b').length := by
  obtain ⟨hfst, hsnd⟩ := h.append
  refine ⟨c.advance b.length, take_eq_ok.2 ⟨hfst.within, by rw [hfst.bytes]⟩, hsnd, ?_⟩
  rw [Cursor.advance_advance, List.length_append]

/-- The groups of a varint that lies ahead are the digits of its value (rule R63). -/
theorem Cursor.Ahead.groupSum_eq {u : Nat} (h : c.Ahead m (varint u)) :
    ∀ n, n ≤ varlen u → groupSum m c.pos.toNat n = u % 128 ^ n
  | 0, _ => by rw [groupSum, Nat.pow_zero, Nat.mod_one]
  | n + 1, hn => by
    rw [groupSum_succ, h.groupSum_eq n (by omega), h.read (by rw [varint_length]; omega), varint_getD (by omega),
      Nat.pow_succ, Nat.mod_mul]
    congr 2
    split <;> omega

/-- A varint that lies ahead is one of every type that is wide enough: its last byte has no bit beyond the width. -/
theorem Cursor.Ahead.varintFits {N u : Nat} (hN : 0 < N) (hu : u < 2 ^ N) (h : c.Ahead m (varint u)) :
    VarintFits N m c.pos.toNat (varlen u) := by
  have hwidth := bitWidth_le_iff.2 hu
  have hone := one_le_varlen u
  have hmax : varlen u ≤ maxVarintBytes N := by rw [varlen, maxVarintBytes]; omega
  rcases Nat.lt_or_eq_of_le hmax with hshort | hlong
  · exact .inl hshort
  · refine .inr ⟨hlong, ?_⟩
    rw [h.read (by rw [varint_length]; omega), varint_getD (by omega), if_neg (by omega), Nat.add_zero]
    refine (Nat.mod_le _ _).trans_lt (Nat.div_lt_of_lt_mul ?_)
    rwa [show 128 = 2 ^ 7 from rfl, ← Nat.pow_mul, ← Nat.pow_add,
      show 7 * (varlen u - 1) + (N - 7 * (varlen u - 1)) = N by rw [hlong, maxVarintBytes]; omega]

/-- A varint that lies ahead is read back whole, whatever the type that is wide enough (rule R19). -/
theorem Cursor.Ahead.readVarint {N u : Nat} (hN : 0 < N) (hu : u < 2 ^ N) (h : c.Ahead m (varint u ++ b)) :
    ∃ x c', Machine.readVarint N m c = .ok (x, c') ∧ x.toNat = u ∧ c'.Ahead m b ∧
      c'.advance b.length = c.advance (varint u ++ b).length := by
  obtain ⟨hvarint, hrest⟩ := h.append
  have hlen := varint_length u
  have hone := one_le_varlen u
  have hbyte (k : Nat) (hk : k < varlen u) : (m.read (c.pos.toNat + k)).toNat =
      u / 128 ^ k % 128 + if k + 1 < varlen u then 128 else 0 := by
    rw [hvarint.read (by omega), varint_getD hk]
  have hlast := hbyte (varlen u - 1) (by omega)
  rw [if_neg (by omega), Nat.add_zero] at hlast
  have hat : VarintAt m c.pos.toNat (varlen u) :=
    ⟨hone, fun k hk => by rw [hbyte k (by omega), if_pos hk]; omega, by rw [hlast]; exact Nat.mod_lt _ (by decide)⟩
  have hvalue : groupSum m c.pos.toNat (varlen u) = u := by
    rw [hvarint.groupSum_eq _ le_rfl, Nat.mod_eq_of_lt ((varlen_le_iff hone).1 le_rfl)]
  have hfits := hvarint.varintFits hN hu
  refine ⟨_, _, readVarint_of_varintAt hat (by rw [← hlen]; exact hvarint.within) hfits, ?_, ?_, ?_⟩
  · rw [hvalue, BitVec.toNat_ofNat, Nat.mod_eq_of_lt hu]
  · rw [← hlen]; exact hrest
  · rw [Cursor.advance_advance, List.length_append, hlen]

end Ahead

end Sys2Proof.Machine
end

section
/-! PROOFS. What the delta decoder makes of the mini-blocks that lie ahead of it (rules R283, R322, R323): it loads them
one by one, and each sum of the value before, a stored relative delta and the stored min_delta is the next value again,
whatever has wrapped around on the way (rule R286). -/

namespace Sys2Proof.Machine

/-! ### The deltas come back from what is stored of them (rules R282, R286) -/

theorem minDelta_le {ds : List Int} {x : Int} (hx : x ∈ ds) : minDelta ds ≤ x := by
  cases ds with
  | nil => cases hx
  | cons d ds => exact (List.min?_eq_some_iff.1 (List.min?_cons' (x := d) (xs := ds))).2 x hx

/-- The stored relative delta of `x` over the minimum `mind` (rule R286). -/
def relativeTo (mind x : Int) : Nat := (x - mind).toNat % 2 ^ 64

theorem storedRels_eq (vals : List Int) :
    storedRels vals = (deltas vals).map (relativeTo (minDelta (deltas vals))) := rfl

theorem ofInt_eq_of_modEq {w : Nat} {x y : Int} (h : x ≡ y [ZMOD ((2 ^ w : Nat) : Int)]) :
    BitVec.ofInt w x = BitVec.ofInt w y :=
  BitVec.eq_of_toNat_eq (by rw [BitVec.toNat_ofInt, BitVec.toNat_ofInt, h])

/-- The sum of rule R323 undoes the differences of rule R282: what `wrap_64` and `swrap_64` took away is a multiple of
`2^64`, which the unit's own wrap takes away too (rule R286). -/
theorem wrapped_sum_eq {w : Nat} (hw : w ≤ 64) (cur next : BitVec w) {mind : Int}
    (hmin : mind ≤ next.toInt - cur.toInt) :
    BitVec.ofInt w (cur.toInt + ((BitVec.ofNat 64 (relativeTo mind (next.toInt - cur.toInt))).toNat : Int) +
      (BitVec.ofInt 64 mind).toInt) = next := by
  have hrel : ((BitVec.ofNat 64 (relativeTo mind (next.toInt - cur.toInt))).toNat : Int) ≡
      next.toInt - cur.toInt - mind [ZMOD ((2 ^ 64 : Nat) : Int)] := by
    rw [relativeTo, BitVec.toNat_ofNat, Nat.mod_mod, Int.natCast_mod, Int.toNat_of_nonneg (by omega)]
    exact Int.mod_modEq _ _
  have hmind : (BitVec.ofInt 64 mind).toInt ≡ mind [ZMOD ((2 ^ 64 : Nat) : Int)] := by
    rw [BitVec.toInt_ofInt]
    exact Int.bmod_emod
  have hsum := ((Int.ModEq.refl cur.toInt).add hrel).add hmind
  have hdvd : ((2 ^ w : Nat) : Int) ∣ ((2 ^ 64 : Nat) : Int) := Int.natCast_dvd_natCast.2 (Nat.pow_dvd_pow 2 hw)
  rw [ofInt_eq_of_modEq (hsum.of_dvd hdvd), show cur.toInt + (next.toInt - cur.toInt - mind) + mind = next.toInt by ring,
    BitVec.ofInt_toInt]

/-! ### The mini-blocks as bytes (rules R283, R284) -/

/-- The width bytes of `mc` mini-blocks of size `m`. -/
def miniWidthBytes (m : Nat) (rels : List Nat) (mc : Nat) : Bytes :=
  (miniBlocks m rels mc).map fun xs => BitVec.ofNat 8 (miniWidth xs)

/-- The packed values of `mc` mini-blocks of size `m`. -/
def packedMinis (m : Nat) (rels : List Nat) (mc : Nat) : Bytes :=
  ((miniBlocks m rels mc).map fun xs => pack xs (miniWidth xs)).flatten

theorem serialize_eq (w : Nat) (vals : List Int) (m : Nat) :
    serialize w vals m =
      varint (blockSize (vals.length - 1)) ++ varint (blockSize (vals.length - 1) / m) ++ varint vals.length ++
        varint (zigzag (BitVec.ofInt w (vals.headD 0))).toNat ++ varint (zigzag (storedMin vals)).toNat ++
        miniWidthBytes m (storedRels vals) (blockSize (vals.length - 1) / m) ++
        packedMinis m (storedRels vals) (blockSize (vals.length - 1) / m) := rfl

@[simp] theorem miniWidthBytes_length (m : Nat) (rels : List Nat) (mc : Nat) :
    (miniWidthBytes m rels mc).length = mc := by
  rw [miniWidthBytes, List.length_map, miniBlocks_length]

theorem miniWidthBytes_succ (m : Nat) (rels : List Nat) (mc : Nat) :
    miniWidthBytes m rels (mc + 1) =
      BitVec.ofNat 8 (miniWidth (rels.take m)) :: miniWidthBytes m (rels.drop m) mc := rfl

theorem packedMinis_succ (m : Nat) (rels : List Nat) (mc : Nat) :
    packedMinis m rels (mc + 1) =
      pack (rels.take m) (miniWidth (rels.take m)) ++ packedMinis m (rels.drop m) mc := rfl

/-- Mini-blocks beyond the data take no bytes (rule R283). -/
theorem packedMinis_nil (m : Nat) : ∀ mc, packedMinis m [] mc = []
  | 0 => rfl
  | mc + 1 => by
    rw [packedMinis_succ, List.take_nil, List.drop_nil, packedMinis_nil m mc]
    rfl

/-- Every mini-block is a part of the values. -/
theorem mem_of_mem_miniBlocks {m x : Nat} {xs : List Nat} : ∀ {mc : Nat} {rels : List Nat},
    xs ∈ miniBlocks m rels mc → x ∈ xs → x ∈ rels
  | mc + 1, rels, hxs, hx => by
    rcases List.mem_cons.1 hxs with rfl | hxs
    · exact List.mem_of_mem_take hx
    · exact List.mem_of_mem_drop (mem_of_mem_miniBlocks hxs hx)

/-- A width byte holds its width, which is no wider than the values. -/
theorem toNat_le_of_mem_miniWidthBytes {m mc b : Nat} {rels : List Nat} {y : Byte}
    (hrels : ∀ x ∈ rels, x < 2 ^ b) (hy : y ∈ miniWidthBytes m rels mc) : y.toNat ≤ b := by
  obtain ⟨xs, hxs, rfl⟩ := List.mem_map.1 hy
  rw [BitVec.toNat_ofNat]
  exact (Nat.mod_le _ _).trans (miniWidth_le fun x hx => hrels x (mem_of_mem_miniBlocks hxs hx))

theorem le_maxOf {xs : List Nat} {x : Nat} (hx : x ∈ xs) : x ≤ maxOf xs :=
  (List.max?_eq_some_iff.1 (List.max?_cons' (x := 0) (xs := xs))).2 x (List.mem_cons_of_mem 0 hx)

/-- A mini-block's width holds each of its values, so it unpacks to them (rules R17, R283). -/
theorem unpack_pack_miniWidth (xs : List Nat) :
    unpack (pack xs (miniWidth xs)) (miniWidth xs) xs.length = xs := by
  rw [unpack_pack]
  refine (List.map_congr_left fun x hx => Nat.mod_eq_of_lt ?_).trans (List.map_id xs)
  exact (le_maxOf hx).trans_lt (bitWidth_lt (maxOf xs))

/-! ### A decoder inside a block (rules R322, R323) -/

/-- The decoder `d` still owes the deltas `loaded`, which stand in `MB`, and then the deltas `later`, which lie ahead
of its cursor in `mc` mini-blocks that end at `stop`. -/
structure DeltaDec.Owes {w : Nat} (d : DeltaDec w) (m : Memory) (stop : Cursor) (loaded later : List Nat)
    (mc : Nat) : Prop where
  returned : d.first = false
  remv : d.remv = loaded.length + later.length
  mbpos : d.mbpos + loaded.length = d.mb.length
  mb : d.mb.drop d.mbpos = loaded.map (BitVec.ofNat 64)
  fits : ∀ x ∈ later, x < 2 ^ 64
  covered : later.length ≤ mc * d.msz
  widths : d.widths.drop d.mbidx = miniWidthBytes d.msz later mc
  ahead : d.csr.Ahead m (packedMinis d.msz later mc)
  stop : d.csr.advance (packedMinis d.msz later mc).length = stop

theorem getD_of_drop_eq_cons {α : Type} {l t : List α} {i : Nat} {x : α} (h : l.drop i = x :: t) (y : α) :
    l.getD i y = x := by
  have hhead : (l.drop i)[0]? = some x := by rw [h]; rfl
  rw [List.getElem?_drop, Nat.add_zero] at hhead
  rw [List.getD_eq_getElem?_getD, hhead, Option.getD_some]

theorem drop_succ_of_drop_eq_cons {α : Type} {l t : List α} {i : Nat} {x : α} (h : l.drop i = x :: t) :
    l.drop (i + 1) = t := by
  rw [← List.drop_drop, h]
  rfl

section Owes
variable {w : Nat} {d : DeltaDec w} {m : Memory} {stop : Cursor} {later rels : List Nat} {mc r : Nat}

/-- With nothing left in `MB`, the next mini-block is loaded. -/
theorem DeltaDec.Owes.load (h : d.Owes m stop [] later (mc + 1)) :
    ∃ d', nextMini m d = .ok d' ∧ d'.Owes m stop (later.take d.msz) (later.drop d.msz) mc ∧
      d'.cur = d.cur ∧ d'.mind = d.mind := by
  obtain ⟨hfirst, hremv, hmbpos, -, hfits, hcovered, hwidths, hahead, hstop⟩ := h
  rw [List.length_nil] at hremv hmbpos
  rw [miniWidthBytes_succ] at hwidths
  rw [packedMinis_succ] at hahead hstop
  have hcount : min d.msz d.remv = (later.take d.msz).length := by rw [List.length_take, hremv, Nat.zero_add]
  have hwidth : (d.widths.getD d.mbidx 0).toNat = miniWidth (later.take d.msz) := by
    have hle : miniWidth (later.take d.msz) ≤ 64 := miniWidth_le fun x hx => hfits x (List.mem_of_mem_take hx)
    rw [getD_of_drop_eq_cons hwidths, BitVec.toNat_ofNat, Nat.mod_eq_of_lt (hle.trans_lt (by decide))]
  obtain ⟨c, htake, hrest, hend⟩ := hahead.take
  have hload : loadMini m d = .ok { d with
      csr := c, mb := (later.take d.msz).map (BitVec.ofNat 64), mbpos := 0, mbidx := d.mbidx + 1 } := by
    rw [pack_length] at htake
    rw [loadMini, hcount, hwidth]
    exact bind_eq_ok.2 ⟨_, htake, by simp only [unpack_pack_miniWidth]⟩
  refine ⟨_, (if_pos hmbpos).trans hload, ⟨hfirst, ?_, ?_, rfl, ?_, ?_, drop_succ_of_drop_eq_cons hwidths, hrest,
    hend.trans hstop⟩, rfl, rfl⟩
  · rw [← List.length_append, List.take_append_drop, hremv, Nat.zero_add]
  · rw [Nat.zero_add, List.length_map]
  · exact fun x hx => hfits x (List.mem_of_mem_drop hx)
  · show (later.drop d.msz).length ≤ mc * d.msz
    rw [List.length_drop]
    rw [Nat.succ_mul] at hcovered
    omega

/-- A decoder that owes a delta has it in `MB` after loading a mini-block where that is due. -/
theorem DeltaDec.Owes.ready {loaded : List Nat} (h : d.Owes m stop loaded later mc)
    (hrels : loaded ++ later = r :: rels) :
    ∃ d' loaded' later' mc', nextMini m d = .ok d' ∧ d'.Owes m stop (r :: loaded') later' mc' ∧
      loaded' ++ later' = rels ∧ d'.cur = d.cur ∧ d'.mind = d.mind := by
  cases loaded with
  | cons x loaded =>
    obtain ⟨rfl, rfl⟩ := List.cons.inj hrels
    have hmb := h.mbpos
    rw [List.length_cons] at hmb
    exact ⟨d, loaded, later, mc, if_neg (by omega), h, rfl, rfl, rfl⟩
  | nil =>
    rw [List.nil_append] at hrels
    subst hrels
    have hcovered := h.covered
    rw [List.length_cons] at hcovered
    obtain ⟨mc, rfl⟩ : ∃ k, mc = k + 1 := Nat.exists_eq_succ_of_ne_zero fun h0 => by simp [h0] at hcovered
    obtain ⟨size, hsize⟩ : ∃ k, d.msz = k + 1 := Nat.exists_eq_succ_of_ne_zero fun h0 => by simp [h0] at hcovered
    obtain ⟨d', hnext, howes, hcur, hmind⟩ := h.load
    rw [hsize, List.take_succ_cons, List.drop_succ_cons] at howes
    exact ⟨d', _, _, mc, hnext, howes, List.take_append_drop size rels, hcur, hmind⟩

/-- The next delta of `MB` is used up. -/
theorem DeltaDec.Owes.advance {loaded : List Nat} (h : d.Owes m stop (r :: loaded) later mc) :
    (deltaAdvance d).2.Owes m stop loaded later mc ∧
      (deltaAdvance d).1 = BitVec.ofInt w (d.cur.toInt + ((BitVec.ofNat 64 r).toNat : Int) + d.mind.toInt) := by
  obtain ⟨hfirst, hremv, hmbpos, hmb, hfits, hcovered, hwidths, hahead, hstop⟩ := h
  rw [List.map_cons] at hmb
  rw [List.length_cons] at hremv hmbpos
  refine ⟨⟨hfirst, ?_, ?_, drop_succ_of_drop_eq_cons hmb, hfits, hcovered, hwidths, hahead, hstop⟩, ?_⟩
  · show d.remv - 1 = _
    omega
  · show d.mbpos + 1 + loaded.length = d.mb.length
    omega
  · rw [deltaAdvance, getD_of_drop_eq_cons hmb]

/-- `deltaNext` inside a block: the value before, plus the delta owed next, plus min_delta (rule R323). -/
theorem DeltaDec.Owes.deltaNext_eq {loaded : List Nat} (h : d.Owes m stop loaded later mc)
    (hrels : loaded ++ later = r :: rels) :
    ∃ d' loaded' later' mc', d'.Owes m stop loaded' later' mc' ∧ loaded' ++ later' = rels ∧ d'.mind = d.mind ∧
      deltaNext m d = .ok (d'.cur, d') ∧
      d'.cur = BitVec.ofInt w (d.cur.toInt + ((BitVec.ofNat 64 r).toNat : Int) + d.mind.toInt) := by
  have hpos : d.remv ≠ 0 := by
    rw [h.remv, ← List.length_append, hrels]
    exact Nat.succ_ne_zero _
  obtain ⟨d₂, loaded', later', mc', hnext, howes, hrest, hcur, hmind⟩ := h.ready hrels
  obtain ⟨howes', hvalue⟩ := howes.advance
  refine ⟨(deltaAdvance d₂).2, loaded', later', mc', howes', hrest, hmind,
    deltaNext_eq_ok.2 ⟨d, if_neg hpos, .inr ⟨h.returned, d₂, hnext, rfl⟩⟩, ?_⟩
  rw [← hcur, ← hmind]
  exact hvalue

end Owes

/-! ### All of the values of a block -/

/-- Decoding from `d` on returns the values in order and ends at `d'`. -/
def DeltaDec.Yields {w : Nat} (m : Memory) (d' : DeltaDec w) : DeltaDec w → List (BitVec w) → Prop
  | d, [] => d' = d
  | d, v :: vs => ∃ d₁, deltaNext m d = .ok (v, d₁) ∧ Yields m d' d₁ vs

/-- A decoder that owes the relative deltas of the values behind its last one returns them, and stands where the
mini-blocks end. -/
theorem DeltaDec.Owes.yields {w : Nat} (hw : w ≤ 64) {m : Memory} {stop : Cursor} {mind : Int} :
    ∀ {vs : List (BitVec w)} {d : DeltaDec w} {loaded later : List Nat} {mc : Nat}, d.Owes m stop loaded later mc →
    d.mind = BitVec.ofInt 64 mind → (∀ x ∈ deltas (d.cur.toInt :: bufferedVals vs), mind ≤ x) →
    loaded ++ later = (deltas (d.cur.toInt :: bufferedVals vs)).map (relativeTo mind) →
    ∃ d', DeltaDec.Yields m d' d vs ∧ d'.csr = stop ∧ d'.remv = 0
  | [], d, loaded, later, mc, h, _, _, hrels => by
    obtain ⟨rfl, rfl⟩ := List.append_eq_nil_iff.1 hrels
    have hstop := h.stop
    rw [packedMinis_nil, List.length_nil, Cursor.advance_zero] at hstop
    exact ⟨d, rfl, hstop, h.remv⟩
  | v :: vs, d, loaded, later, mc, h, hmind, hmin, hrels => by
    obtain ⟨hle, hmin⟩ := List.forall_mem_cons.1 hmin
    obtain ⟨d₁, loaded₁, later₁, mc₁, howes, hrest, hmind₁, hnext, hcur⟩ := h.deltaNext_eq hrels
    rw [hmind, wrapped_sum_eq hw d.cur v hle] at hcur
    obtain ⟨d', hyields, hend⟩ := howes.yields hw (vs := vs) (hmind₁.trans hmind) (by rw [hcur]; exact hmin)
      (by rw [hcur]; exact hrest)
    exact ⟨d', ⟨d₁, hcur ▸ hnext, hyields⟩, hend⟩

end Sys2Proof.Machine
end

section
/-! PROOFS. The round trip of one delta block (rules R286, R328): the decoder reads the header the encoder wrote, then
owes the relative deltas of the mini-blocks behind it; and the same through the commands of units 4 and 5. -/

namespace Sys2Proof.Machine

/-! ### The header of a block (rules R284, R285, R321) -/

/-- The counts of a serialised block pass the decoder's checks. -/
theorem headerBad_of_candidate {n size : Nat} (hpos : 1 ≤ n) (hmax : n ≤ 128)
    (hsize : size ∈ candidates (blockSize n)) : headerBad (blockSize n) (blockSize n / size) (n + 1) = false := by
  obtain ⟨hfits, hle, -⟩ := blockSize_spec hpos hmax
  obtain ⟨hoct, hsize0, hdvd, hmc, hmc0⟩ := candidate_divides hsize
  have hback : blockSize n / (blockSize n / size) = size := Nat.div_div_self hdvd (by omega)
  have hmod : blockSize n % (blockSize n / size) = 0 := Nat.mod_eq_zero_of_dvd (Nat.div_dvd_of_dvd hdvd)
  have hcounts : ¬(Config.blkMax < blockSize n ∨ 16 < blockSize n / size ∨ n + 1 < 1 ∨ blockSize n < n + 1 - 1) := by
    rw [Config.blkMax]
    omega
  rw [headerBad, if_neg hcounts, if_neg (by omega), hback, hmod, decide_eq_false_iff_not]
  omega

/-- The decoder `d` behind the header of the block `serialize w vals size`, with its cursor at `c`. -/
def headerOfBlock {w : Nat} (d : DeltaDec w) (c : Cursor) (vals : List Int) (size : Nat) : DeltaDec w :=
  { startBlock d c vals.length size (BitVec.ofInt w (vals.headD 0)) (storedMin vals) with
    widths := miniWidthBytes size (storedRels vals) (blockSize (vals.length - 1) / size) }

section Header
variable {w : Nat} {m : Memory} {d : DeltaDec w}

/-- The header of a one-value block reads back as the block of that value, and ends it (rule R285). -/
theorem readBlockHeader_one (hw : 0 < w) (v : BitVec w)
    (h : d.csr.Ahead m (varint 0 ++ varint 0 ++ varint 1 ++ varint (zigzag v).toNat)) :
    readBlockHeader m d = .ok (startBlock d
      (d.csr.advance (varint 0 ++ varint 0 ++ varint 1 ++ varint (zigzag v).toNat).length) 1 0 v 0) := by
  rw [← List.append_nil (varint (zigzag v).toNat)] at h ⊢
  simp only [List.append_assoc] at h ⊢
  obtain ⟨bs, c₁, hbs, hbsv, h₁, hend₁⟩ := h.readVarint (N := 32) (by decide) (by decide)
  obtain ⟨mc, c₂, hmc, hmcv, h₂, hend₂⟩ := h₁.readVarint (N := 32) (by decide) (by decide)
  obtain ⟨vc, c₃, hvc, hvcv, h₃, hend₃⟩ := h₂.readVarint (N := 32) (by decide) (by decide)
  obtain ⟨u, c₄, hu, huv, -, hend₄⟩ := h₃.readVarint hw (zigzag v).isLt
  obtain rfl := BitVec.eq_of_toNat_eq huv
  rw [← hend₁, ← hend₂, ← hend₃, ← hend₄, List.length_nil, Cursor.advance_zero]
  refine bind_eq_ok.2 ⟨_, hbs, bind_eq_ok.2 ⟨_, hmc, bind_eq_ok.2 ⟨_, hvc, bind_eq_ok.2 ⟨_, hu, ?_⟩⟩⟩⟩
  simp only [hbsv, hmcv, hvcv, unzigzag_zigzag hw]
  rfl

/-- The header of a serialised block reads back as the counts, the first value and the stored min_delta it was written
from; the packed mini-blocks lie behind it (rule R284). -/
theorem readBlockHeader_serialize {vals : List Int} {size : Nat} (hw : 0 < w) (h2 : 2 ≤ vals.length)
    (hmax : vals.length ≤ 129) (hsize : size ∈ candidates (blockSize (vals.length - 1)))
    (hrels : ∀ x ∈ storedRels vals, x < 2 ^ maxMiniWidth w) (h : d.csr.Ahead m (serialize w vals size)) :
    ∃ c, readBlockHeader m d = .ok (headerOfBlock d c vals size) ∧
      c.Ahead m (packedMinis size (storedRels vals) (blockSize (vals.length - 1) / size)) ∧
      c.advance (packedMinis size (storedRels vals) (blockSize (vals.length - 1) / size)).length =
        d.csr.advance (serialize w vals size).length := by
  obtain ⟨hfits, hle, -⟩ := blockSize_spec (n := vals.length - 1) (by omega) (by omega)
  obtain ⟨-, hsize0, hdvd, hmc, hmc0⟩ := candidate_divides hsize
  have hgood := headerBad_of_candidate (by omega) (by omega) hsize
  rw [Nat.sub_add_cancel (by omega)] at hgood
  have hback : blockSize (vals.length - 1) / (blockSize (vals.length - 1) / size) = size :=
    Nat.div_div_self hdvd (by omega)
  rw [serialize_eq] at h ⊢
  simp only [List.append_assoc] at h ⊢
  obtain ⟨bs, c₁, hbs, hbsv, h₁, hend₁⟩ := h.readVarint (N := 32) (by decide) (by omega)
  obtain ⟨mc, c₂, hmc, hmcv, h₂, hend₂⟩ := h₁.readVarint (N := 32) (by decide) (by omega)
  obtain ⟨vc, c₃, hvc, hvcv, h₃, hend₃⟩ := h₂.readVarint (N := 32) (by decide) (by omega)
  obtain ⟨u, c₄, hu, huv, h₄, hend₄⟩ := h₃.readVarint hw (BitVec.isLt _)
  obtain ⟨md, c₅, hmd, hmdv, h₅, hend₅⟩ := h₄.readVarint (N := 64) (by decide) (BitVec.isLt _)
  obtain ⟨c₆, hws, h₆, hend₆⟩ := h₅.take
  obtain rfl := BitVec.eq_of_toNat_eq huv
  obtain rfl := BitVec.eq_of_toNat_eq hmdv
  rw [← hend₁, ← hend₂, ← hend₃, ← hend₄, ← hend₅, ← hend₆]
  refine ⟨c₆, ?_, h₆, rfl⟩
  rw [miniWidthBytes_length] at hws
  have hwidths : ¬(miniWidthBytes size (storedRels vals) (blockSize (vals.length - 1) / size)).any
      (fun y => decide (maxMiniWidth w < y.toNat)) = true := by
    rw [List.any_eq_true]
    rintro ⟨y, hy, hwide⟩
    exact absurd (toNat_le_of_mem_miniWidthBytes hrels hy) (Nat.not_le_of_lt (of_decide_eq_true hwide))
  refine bind_eq_ok.2 ⟨_, hbs, bind_eq_ok.2 ⟨_, hmc, bind_eq_ok.2 ⟨_, hvc, bind_eq_ok.2 ⟨_, hu, ?_⟩⟩⟩⟩
  simp only [hbsv, hmcv, hvcv, hgood, unzigzag_zigzag hw]
  rw [if_neg Bool.false_ne_true, if_neg (by omega)]
  refine bind_eq_ok.2 ⟨_, hmd, bind_eq_ok.2 ⟨_, hws, ?_⟩⟩
  simp only [hback, unzigzag_zigzag (n := 64) (by decide)]
  exact if_neg hwidths

/-- Once its first value is returned, a block whose mini-blocks lie ahead owes all of its stored relative deltas. -/
theorem owes_headerOfBlock {c stop : Cursor} {vals : List Int} {size : Nat} (h2 : 2 ≤ vals.length)
    (hmax : vals.length ≤ 129) (hsize : size ∈ candidates (blockSize (vals.length - 1)))
    (hahead : c.Ahead m (packedMinis size (storedRels vals) (blockSize (vals.length - 1) / size)))
    (hstop : c.advance (packedMinis size (storedRels vals) (blockSize (vals.length - 1) / size)).length = stop) :
    DeltaDec.Owes { headerOfBlock d c vals size with first := false, remv := vals.length - 1 } m stop []
      (storedRels vals) (blockSize (vals.length - 1) / size) := by
  obtain ⟨-, -, hdvd, -, -⟩ := candidate_divides hsize
  obtain ⟨hfits, -, -⟩ := blockSize_spec (n := vals.length - 1) (by omega) (by omega)
  refine ⟨rfl, ?_, rfl, rfl, storedRels_lt vals, ?_, rfl, hahead, hstop⟩
  · rw [storedRels_length]
    exact (Nat.zero_add _).symm
  · rw [storedRels_length]
    exact hfits.trans (Nat.div_mul_cancel hdvd).ge

/-- `deltaNext` at the end of a block returns the first value of the next (rule R323). -/
theorem deltaNext_of_header {d₁ : DeltaDec w} {v : BitVec w} (hremv : d.remv = 0)
    (hread : readBlockHeader m d = .ok d₁) (hfirst : d₁.first = true) (hv : d₁.cur = v) :
    deltaNext m d = .ok (v, { d₁ with first := false, remv := d₁.remv - 1 }) :=
  hv ▸
  deltaNext_eq_ok.2 ⟨d₁, (if_pos hremv).trans hread, .inl ⟨hfirst, rfl⟩⟩

/-- Rules R286 and R328: from the end of a block the decoder returns the values of the next, and stands behind it. -/
theorem yields_bestBlock {vals : List (BitVec w)} (hw : 0 < w) (hw64 : w ≤ 64) (hpos : 1 ≤ vals.length)
    (hmax : vals.length ≤ 129) (hrels : ∀ x ∈ storedRels (bufferedVals vals), x < 2 ^ maxMiniWidth w)
    (hremv : d.remv = 0) (h : d.csr.Ahead m (bestBlock w (bufferedVals vals))) :
    ∃ d', DeltaDec.Yields m d' d vals ∧
      d'.csr = d.csr.advance (bestBlock w (bufferedVals vals)).length ∧ d'.remv = 0 := by
  match vals with
  | [v] =>
    have hblock : bestBlock w (bufferedVals [v]) = _ := bestBlock_singleton v
    rw [hblock] at h ⊢
    exact ⟨_, ⟨_, deltaNext_of_header hremv (readBlockHeader_one hw v h) rfl rfl, rfl⟩, rfl, rfl⟩
  | v :: v₂ :: vs =>
    have h2 : 2 ≤ (bufferedVals (v :: v₂ :: vs)).length := Nat.le_add_left 2 _
    rw [← bufferedVals_length] at hmax
    obtain ⟨size, hsize, hbest, -⟩ := bestBlock_eq_serialize (w := w) h2 hmax
    rw [hbest] at h ⊢
    obtain ⟨c, hread, hahead, hend⟩ := readBlockHeader_serialize hw h2 hmax hsize hrels h
    have hfirst : (headerOfBlock d c (bufferedVals (v :: v₂ :: vs)) size).cur = v := BitVec.ofInt_toInt
    have howes := owes_headerOfBlock (d := d) h2 hmax hsize hahead hend
    obtain ⟨d', hyields, hdone⟩ := howes.yields hw64 (vs := v₂ :: vs) rfl
      (by rw [hfirst]; exact fun x => minDelta_le) (by rw [hfirst]; exact storedRels_eq _)
    exact ⟨d', ⟨_, deltaNext_of_header hremv hread rfl hfirst, hyields⟩, hdone⟩

end Header

/-! ### The commands of units 4 and 5 (rules R324 to R327) -/

/-- A delta decoder unit as its two commands show it: `get` and `put` reach the unit's state, and `ext` places a value
in `R`. -/
structure DeltaUnit {w : Nat} (dinit dec : Instr) (get : State → DeltaDec w) (put : State → DeltaDec w → State)
    (ext : BitVec w → DWord) : Prop where
  execInit : ∀ s, s.Running → exec dinit s = .next (put s (deltaInit (get s) s.rc))
  execNext : ∀ s v d, s.Running → (get s).act = true → deltaNext s.ib (get s) = .ok (v, d) →
    exec dec s = .next ((put s d).setR (ext v))
  get_put : ∀ s d, get (put s d) = d
  get_setR : ∀ s x, get (s.setR x) = get s
  keeps : ∀ s d, (put s d).fault = s.fault ∧ (put s d).ib = s.ib ∧ (put s d).r = s.r

theorem deltaUnit4 : DeltaUnit (.dinit4 0) (.dec4 0) State.d4 State.setD4 sext64 where
  execInit _ hrun := command_ok hrun rfl rfl
  execNext _ _ _ hrun hact hnext := command_ok hrun rfl ((if_pos hact).trans (bind_eq_ok.2 ⟨_, hnext, rfl⟩))
  get_put _ _ := rfl
  get_setR _ _ := rfl
  keeps _ _ := ⟨rfl, rfl, rfl⟩

theorem deltaUnit5 : DeltaUnit (.dinit5 0) (.dec5 0) State.d5 State.setD5 id where
  execInit _ hrun := command_ok hrun rfl rfl
  execNext _ _ _ hrun hact hnext := command_ok hrun rfl ((if_pos hact).trans (bind_eq_ok.2 ⟨_, hnext, rfl⟩))
  get_put _ _ := rfl
  get_setR _ _ := rfl
  keeps _ _ := ⟨rfl, rfl, rfl⟩

section Unit
variable {w : Nat} {dinit dec : Instr} {get : State → DeltaDec w} {put : State → DeltaDec w → State}
  {ext : BitVec w → DWord}

/-- A run of decode commands returns the values the decoder yields. -/
theorem DeltaUnit.runCommands_dec (hunit : DeltaUnit dinit dec get put ext) {d' : DeltaDec w} :
    ∀ {vs : List (BitVec w)} {s : State}, s.Running → (get s).act = true → DeltaDec.Yields s.ib d' (get s) vs →
    ∃ t, runCommands (vs.map fun _ => dec) s = some (vs.map ext, t) ∧ get t = d'
  | [], s, _, _, hyields => ⟨s, rfl, hyields.symm⟩
  | v :: vs, s, hrun, hact, ⟨d₁, hnext, hyields⟩ => by
    obtain ⟨hfault, hib, -⟩ := hunit.keeps s d₁
    have hget : get ((put s d₁).setR (ext v)) = d₁ := (hunit.get_setR _ _).trans (hunit.get_put s d₁)
    have hexec := hunit.execNext s v d₁ hrun hact hnext
    have hrun₁ : ((put s d₁).setR (ext v)).Running := hfault.trans hrun
    obtain ⟨t, hrest, ht⟩ := hunit.runCommands_dec (vs := vs) (s := (put s d₁).setR (ext v)) hrun₁
      (by rw [hget]; exact (deltaNext_same hnext).trans hact)
      (by rw [hget, State.setR_ib, hib]; exact hyields)
    exact ⟨t, by rw [List.map_cons, runCommands_cons hexec hrun₁, hrest]; rfl, ht⟩

/-- Constructing the decoder over the main cursor and decoding as many values as the block ahead of it holds returns
those values. -/
theorem DeltaUnit.roundTrip (hunit : DeltaUnit dinit dec get put ext) (hw : 0 < w) (hw64 : w ≤ 64) {s : State}
    (hrun : s.Running) {vals : List (BitVec w)} (hpos : 1 ≤ vals.length) (hmax : vals.length ≤ 129)
    (hrels : ∀ x ∈ storedRels (bufferedVals vals), x < 2 ^ maxMiniWidth w)
    (h : s.rc.Ahead s.ib (bestBlock w (bufferedVals vals))) :
    ∃ t, runCommands (dinit :: vals.map fun _ => dec) s = some (s.r :: vals.map ext, t) ∧
      (get t).csr = s.rc.advance (bestBlock w (bufferedVals vals)).length ∧ (get t).remv = 0 := by
  obtain ⟨hfault, hib, hr⟩ := hunit.keeps s (deltaInit (get s) s.rc)
  have hget := hunit.get_put s (deltaInit (get s) s.rc)
  have hrun₁ : (put s (deltaInit (get s) s.rc)).Running := hfault.trans hrun
  obtain ⟨d', hyields, hcsr, hremv⟩ := yields_bestBlock (d := deltaInit (get s) s.rc) hw hw64 hpos hmax hrels rfl h
  obtain ⟨t, hrest, rfl⟩ := hunit.runCommands_dec hrun₁ (by rw [hget]; rfl) (by rw [hget, hib]; exact hyields)
  exact ⟨t, by rw [runCommands_cons (hunit.execInit s hrun) hrun₁, hrest, hr]; rfl, hcsr, hremv⟩

end Unit

/-! ### The statement -/

/-- Settles O60: 33 bits hold the relative deltas of 32-bit values and 64 bits the wrapped ones of 64-bit values, so
both units decode the block they would write. -/
theorem deltaBlockRoundTrip : Obligations.DeltaBlockRoundTrip := by
  intro s hrun
  refine ⟨?unit4, ?unit5⟩
  case unit4 =>
    intro vals hpos hmax block hbytes hin
    have hrels : ∀ x ∈ storedRels (bufferedVals vals), x < 2 ^ 33 := storedRels_lt_of_bounds (k := 31) fun v hv => by
      obtain ⟨x, -, rfl⟩ := List.mem_map.1 hv
      exact ⟨x.le_toInt, x.toInt_lt⟩
    exact deltaUnit4.roundTrip (by decide) (by decide) hrun hpos hmax hrels ⟨hbytes, hin⟩
  case unit5 =>
    intro vals hpos hmax block hbytes hin
    obtain ⟨t, hcommands, hend⟩ := deltaUnit5.roundTrip (by decide) (by decide) hrun hpos hmax (storedRels_lt _)
      ⟨hbytes, hin⟩
    rw [List.map_id] at hcommands
    exact ⟨t, hcommands, hend⟩

end Sys2Proof.Machine
end

section
/-! PROOFS. The delta decoder of units 4 and 5 (rules R321 to R327): what reading a block header and decoding one value
answer in each branch, and what `DEC.4` and `DEC.5` make of it. -/

namespace Sys2Proof.Machine

/-! ### A block header, field by field (rule R321) -/

/-- A step that completes hands its result to the steps behind it. -/
theorem bind_of_eq_ok {α β : Type} {x : Except FaultCode α} {f : α → Except FaultCode β} {a : α} (h : x = .ok a) :
    (x >>= f) = f a := by
  rw [h]
  rfl

/-- The counts that rule R321 refuses, as one disjunction. -/
theorem headerBad_iff {bs mc vc : Nat} : headerBad bs mc vc = true ↔
    128 < bs ∨ 16 < mc ∨ vc < 1 ∨ bs < vc - 1 ∨ (mc = 0 ∧ vc ≠ 1) ∨
      (mc ≠ 0 ∧ (bs % mc ≠ 0 ∨ bs / mc = 0 ∨ bs / mc % 8 ≠ 0)) := by
  unfold headerBad Config.blkMax
  split
  case isTrue hcounts =>
    obtain hbs | hmc | hvc | hdeltas := hcounts <;> simp [*]
  case isFalse hcounts =>
    obtain ⟨hbs, hmc, hvc, hdeltas⟩ : ¬128 < bs ∧ ¬16 < mc ∧ ¬vc < 1 ∧ ¬bs < vc - 1 := by
      simpa only [not_or] using hcounts
    have hcount : vc ≠ 0 := by omega
    by_cases hzero : mc = 0 <;> simp [hbs, hmc, hdeltas, hcount, hzero]

section Header
variable {w : Nat} {m : Memory} {d : DeltaDec w} {bs mc vc : Word} {u : BitVec w} {md : DWord}
  {c₄ c₅ : Cursor}

/-- The header of `d` begins with the counts `bs`, `mc` and `vc` and the first value `u`, which end at `stop`. -/
def DeltaDec.HeaderFields (m : Memory) (d : DeltaDec w) (bs mc vc : Word) (u : BitVec w) (stop : Cursor) : Prop :=
  ∃ c₁ c₂ c₃, readVarint 32 m d.csr = .ok (bs, c₁) ∧ readVarint 32 m c₁ = .ok (mc, c₂) ∧
    readVarint 32 m c₂ = .ok (vc, c₃) ∧ readVarint w m c₃ = .ok (u, stop)

/-- The rest of a header that announces mini-blocks, read from `c` on: `min_delta`, then the width bytes. -/
def readMiniHeader (m : Memory) (d : DeltaDec w) (bs mc vc : Word) (u : BitVec w) (c : Cursor) :
    Except FaultCode (DeltaDec w) :=
  readVarint 64 m c >>= fun x => take m x.2 mc.toNat >>= fun y =>
    if y.1.any (fun b => decide (maxMiniWidth w < b.toNat)) then .error .badWidth
    else .ok { startBlock d y.2 vc.toNat (bs.toNat / mc.toNat) (unzigzag u) (unzigzag x.1) with widths := y.1 }

/-- Behind the four fields: the checks, and only then `min_delta` and the width bytes. -/
theorem readBlockHeader_of_fields (h : d.HeaderFields m bs mc vc u c₄) :
    readBlockHeader m d =
      if headerBad bs.toNat mc.toNat vc.toNat then .error .badBlockHeader
      else if mc.toNat = 0 then .ok (startBlock d c₄ vc.toNat 0 (unzigzag u) 0)
      else readMiniHeader m d bs mc vc u c₄ := by
  obtain ⟨c₁, c₂, c₃, hbs, hmc, hvc, hu⟩ := h
  exact (bind_of_eq_ok hbs).trans ((bind_of_eq_ok hmc).trans ((bind_of_eq_ok hvc).trans (bind_of_eq_ok hu)))

theorem readBlockHeader_bad (h : d.HeaderFields m bs mc vc u c₄)
    (hbad : headerBad bs.toNat mc.toNat vc.toNat = true) : readBlockHeader m d = .error .badBlockHeader := by
  rw [readBlockHeader_of_fields h, if_pos hbad]

theorem readBlockHeader_single (h : d.HeaderFields m bs mc vc u c₄)
    (hgood : ¬headerBad bs.toNat mc.toNat vc.toNat = true) (hmc : mc.toNat = 0) :
    readBlockHeader m d = .ok (startBlock d c₄ vc.toNat 0 (unzigzag u) 0) := by
  rw [readBlockHeader_of_fields h, if_neg hgood, if_pos hmc]

/-- A header without mini-blocks that passes the checks announces one value. -/
theorem count_eq_one_of_good {bs mc vc : Nat} (hgood : ¬headerBad bs mc vc = true) (hmc : mc = 0) : vc = 1 := by
  by_contra hvc
  exact hgood (headerBad_iff.2 (.inr (.inr (.inr (.inr (.inl ⟨hmc, hvc⟩))))))

theorem readBlockHeader_minis (h : d.HeaderFields m bs mc vc u c₄)
    (hgood : ¬headerBad bs.toNat mc.toNat vc.toNat = true) (hmc : mc.toNat ≠ 0) :
    readBlockHeader m d = readMiniHeader m d bs mc vc u c₄ := by
  rw [readBlockHeader_of_fields h, if_neg hgood, if_neg hmc]

theorem readBlockHeader_minDelta_fault {code : FaultCode} (h : d.HeaderFields m bs mc vc u c₄)
    (hgood : ¬headerBad bs.toNat mc.toNat vc.toNat = true) (hmc : mc.toNat ≠ 0)
    (hread : readVarint 64 m c₄ = .error code) : readBlockHeader m d = .error code := by
  rw [readBlockHeader_minis h hgood hmc]
  exact bind_eq_error.2 (.inl hread)

theorem readBlockHeader_widths_past (h : d.HeaderFields m bs mc vc u c₄)
    (hgood : ¬headerBad bs.toNat mc.toNat vc.toNat = true) (hmc : mc.toNat ≠ 0)
    (hread : readVarint 64 m c₄ = .ok (md, c₅)) (hout : c₅.lim.toNat < c₅.pos.toNat + mc.toNat) :
    readBlockHeader m d = .error .readPastEnd := by
  rw [readBlockHeader_minis h hgood hmc]
  exact bind_eq_error.2 (.inr ⟨_, hread, bind_eq_error.2 (.inl (take_eq_error.2 ⟨hout, rfl⟩))⟩)

theorem readBlockHeader_badWidth (h : d.HeaderFields m bs mc vc u c₄)
    (hgood : ¬headerBad bs.toNat mc.toNat vc.toNat = true) (hmc : mc.toNat ≠ 0)
    (hread : readVarint 64 m c₄ = .ok (md, c₅)) (hin : c₅.pos.toNat + mc.toNat ≤ c₅.lim.toNat)
    (hwide : ∃ y ∈ m.readBytes c₅.pos.toNat mc.toNat, maxMiniWidth w < y.toNat) :
    readBlockHeader m d = .error .badWidth := by
  obtain ⟨y, hy, hlt⟩ := hwide
  rw [readBlockHeader_minis h hgood hmc]
  exact bind_eq_error.2 (.inr ⟨_, hread, bind_eq_error.2 (.inr ⟨_, take_eq_ok.2 ⟨hin, rfl⟩,
    if_pos (List.any_eq_true.2 ⟨y, hy, decide_eq_true hlt⟩)⟩)⟩)

theorem readBlockHeader_widths (h : d.HeaderFields m bs mc vc u c₄)
    (hgood : ¬headerBad bs.toNat mc.toNat vc.toNat = true) (hmc : mc.toNat ≠ 0)
    (hread : readVarint 64 m c₄ = .ok (md, c₅)) (hin : c₅.pos.toNat + mc.toNat ≤ c₅.lim.toNat)
    (hfit : ∀ y ∈ m.readBytes c₅.pos.toNat mc.toNat, y.toNat ≤ maxMiniWidth w) :
    readBlockHeader m d = .ok { startBlock d (c₅.advance mc.toNat) vc.toNat (bs.toNat / mc.toNat) (unzigzag u)
      (unzigzag md) with widths := m.readBytes c₅.pos.toNat mc.toNat } := by
  have hnone : ¬(m.readBytes c₅.pos.toNat mc.toNat).any (fun b => decide (maxMiniWidth w < b.toNat)) = true := by
    rw [List.any_eq_true]
    rintro ⟨y, hy, hwide⟩
    exact absurd (hfit y hy) (Nat.not_le_of_lt (of_decide_eq_true hwide))
  rw [readBlockHeader_minis h hgood hmc]
  exact bind_eq_ok.2 ⟨_, hread, bind_eq_ok.2 ⟨_, take_eq_ok.2 ⟨hin, rfl⟩, if_neg hnone⟩⟩

/-- A header that was read leaves its first value to be returned. -/
theorem readBlockHeader_first {d' : DeltaDec w} (h : readBlockHeader m d = .ok d') : d'.first = true := by
  obtain ⟨_, _, _, _, _, _, _, _, _, _, _, _, _, ⟨_, rfl⟩ | ⟨_, _, _, _, _, _, _, _, rfl⟩⟩ :=
    readBlockHeader_eq_ok h <;> rfl

end Header

/-- Settles O58: a fault of one of the first four reads ends the header there; behind them each branch of the checks
is an equation of its own. -/
theorem blockHeaderIsChecked : Obligations.BlockHeaderIsChecked := by
  refine ⟨fun w m d code => ⟨fun hbs => bind_eq_error.2 (.inl hbs), fun bs c₁ hbs =>
    ⟨fun hmc => ?mcFault, fun mc c₂ hmc => ⟨fun hvc => ?vcFault, fun vc c₃ hvc hu => ?firstFault⟩⟩⟩, ?checked⟩
  case mcFault => exact bind_eq_error.2 (.inr ⟨_, hbs, bind_eq_error.2 (.inl hmc)⟩)
  case vcFault => exact bind_eq_error.2 (.inr ⟨_, hbs, bind_eq_error.2 (.inr ⟨_, hmc, bind_eq_error.2 (.inl hvc)⟩)⟩)
  case firstFault =>
    exact bind_eq_error.2 (.inr ⟨_, hbs, bind_eq_error.2 (.inr ⟨_, hmc, bind_eq_error.2 (.inr ⟨_, hvc,
      bind_eq_error.2 (.inl hu)⟩)⟩)⟩)
  case checked =>
    intro w m d bs mc vc u c₁ c₂ c₃ c₄ hbs hmc hvc hu bad
    have hfields : d.HeaderFields m bs mc vc u c₄ := ⟨c₁, c₂, c₃, hbs, hmc, hvc, hu⟩
    have hbad : headerBad bs.toNat mc.toNat vc.toNat = true ↔ bad := headerBad_iff
    rw [← hbad]
    refine ⟨readBlockHeader_bad hfields, fun hgood hzero => ?single,
      fun hgood hminis code => readBlockHeader_minDelta_fault hfields hgood hminis, fun hgood hminis md c₅ hmd =>
        ⟨readBlockHeader_widths_past hfields hgood hminis hmd, fun hin =>
          ⟨readBlockHeader_badWidth hfields hgood hminis hmd hin,
            readBlockHeader_widths hfields hgood hminis hmd hin⟩⟩⟩
    rw [readBlockHeader_single hfields hgood hzero, count_eq_one_of_good hgood hzero]
    rfl

/-! ### One value, branch by branch (rules R322, R323) -/

/-- The number of bytes of the mini-block `d` loads next (rule R322). -/
def DeltaDec.miniSize {w : Nat} (d : DeltaDec w) : Nat :=
  bytesFor (min d.msz d.remv * (d.widths.getD d.mbidx 0).toNat)

/-- The relative deltas that the mini-block at the cursor of `d` holds (rule R322). -/
def DeltaDec.miniAt {w : Nat} (m : Memory) (d : DeltaDec w) : List DWord :=
  (unpack (m.readBytes d.csr.pos.toNat d.miniSize) (d.widths.getD d.mbidx 0).toNat (min d.msz d.remv)).map
    (BitVec.ofNat 64)

/-- `d` after its next mini-block has been loaded (rule R322). -/
def DeltaDec.loaded {w : Nat} (m : Memory) (d : DeltaDec w) : DeltaDec w :=
  { d with csr := d.csr.advance d.miniSize, mb := d.miniAt m, mbpos := 0, mbidx := d.mbidx + 1 }

section Next
variable {w : Nat} {m : Memory} {d : DeltaDec w} {code : FaultCode}

theorem loadMini_of_fits (hin : d.csr.pos.toNat + d.miniSize ≤ d.csr.lim.toNat) :
    loadMini m d = .ok (d.loaded m) :=
  bind_eq_ok.2 ⟨_, take_eq_ok.2 ⟨hin, rfl⟩, rfl⟩

theorem loadMini_past (hout : d.csr.lim.toNat < d.csr.pos.toNat + d.miniSize) :
    loadMini m d = .error .readPastEnd :=
  bind_eq_error.2 (.inl (take_eq_error.2 ⟨hout, rfl⟩))

theorem deltaNext_first (hremv : 0 < d.remv) (hfirst : d.first = true) :
    deltaNext m d = .ok (d.cur, { d with first := false, remv := d.remv - 1 }) :=
  deltaNext_eq_ok.2 ⟨d, if_neg (by omega), .inl ⟨hfirst, rfl⟩⟩

/-- Inside a block the next value is that of the next delta, from `MB` or from the mini-block loaded for it. -/
theorem deltaNext_of_nextMini {d' : DeltaDec w} (hremv : 0 < d.remv) (hfirst : d.first = false)
    (hmini : nextMini m d = .ok d') : deltaNext m d = .ok (deltaAdvance d') :=
  deltaNext_eq_ok.2 ⟨d, if_neg (by omega), .inr ⟨hfirst, d', hmini, rfl⟩⟩

theorem deltaNext_in_mini (hremv : 0 < d.remv) (hfirst : d.first = false) (hmbpos : d.mbpos < d.mb.length) :
    deltaNext m d = .ok (deltaAdvance d) :=
  deltaNext_of_nextMini hremv hfirst (if_neg (by omega))

theorem deltaNext_load (hremv : 0 < d.remv) (hfirst : d.first = false) (hmbpos : d.mbpos = d.mb.length)
    (hin : d.csr.pos.toNat + d.miniSize ≤ d.csr.lim.toNat) :
    deltaNext m d = .ok (deltaAdvance (d.loaded m)) :=
  deltaNext_of_nextMini hremv hfirst ((if_pos hmbpos).trans (loadMini_of_fits hin))

theorem deltaNext_load_past (hremv : 0 < d.remv) (hfirst : d.first = false) (hmbpos : d.mbpos = d.mb.length)
    (hout : d.csr.lim.toNat < d.csr.pos.toNat + d.miniSize) : deltaNext m d = .error .readPastEnd := by
  have hblock : nextBlock m d = .ok d := if_neg (by omega)
  have hmini : nextMini m d = .error .readPastEnd := (if_pos hmbpos).trans (loadMini_past hout)
  have hbehind : ¬d.first = true := by simp [hfirst]
  exact bind_eq_error.2 (.inr ⟨d, hblock, (if_neg hbehind).trans (bind_eq_error.2 (.inl hmini))⟩)

theorem deltaNext_header_fault (hremv : d.remv = 0) (hread : readBlockHeader m d = .error code) :
    deltaNext m d = .error code :=
  bind_eq_error.2 (.inl ((if_pos hremv).trans hread))

end Next

/-! ### `DEC.4` and `DEC.5` (rules R325, R327) -/

/-- A decode command of a running block on the delta decoder `d`: a decoder not constructed raises its own fault, what
`deltaNext` returns goes to the state `put` makes of it, and what it raises is the command's fault. -/
theorem exec_of_deltaNext {w : Nat} {i : Instr} {s : State} {d : DeltaDec w} {put : BitVec w × DeltaDec w → State}
    (hrun : s.Running) (hwf : i.wf = true)
    (hexec : exec i s = command i s
      (if d.act then deltaNext s.ib d >>= fun x => .ok (put x) else .error .decoderNotInitialised)) :
    (d.act = false → exec i s = .next (enterFault .decoderNotInitialised (encode i) s)) ∧
    (d.act = true → ∀ x, deltaNext s.ib d = .ok x → exec i s = .next (put x)) ∧
    (d.act = true → ∀ code, deltaNext s.ib d = .error code → exec i s = .next (enterFault code (encode i) s)) := by
  refine ⟨fun hact => ?idle, fun hact x hnext => ?value, fun hact code hnext => ?fault⟩ <;> rw [hexec]
  case idle => exact command_error hrun hwf (if_neg (by simp [hact]))
  case value => exact command_ok hrun hwf ((if_pos hact).trans (bind_eq_ok.2 ⟨_, hnext, rfl⟩))
  case fault => exact command_error hrun hwf ((if_pos hact).trans (bind_eq_error.2 (.inl hnext)))

/-- Settles O59: the clauses are the branches of `deltaNext`, shown once for both units. -/
theorem deltaDecodeResults : Obligations.DeltaDecodeResults := by
  intro arg s hrun block
  have hblock {w : Nat} {d : DeltaDec w} {i : Instr} {set : DeltaDec w → State} {ext : BitVec w → DWord}
      (hvalue : ∀ x, deltaNext s.ib d = .ok x → exec i s = .next { set x.2 with r := ext x.1 })
      (hfault : ∀ code, deltaNext s.ib d = .error code → exec i s = .next (enterFault code (encode i) s)) :
      block w d i set ext :=
    ⟨fun hremv hfirst => hvalue _ (deltaNext_first hremv hfirst),
      fun hremv hfirst hmbpos => hvalue _ (deltaNext_in_mini hremv hfirst hmbpos),
      fun hremv hfirst hmbpos => ⟨fun hin => hvalue _ (deltaNext_load hremv hfirst hmbpos hin),
        fun hout => hfault _ (deltaNext_load_past hremv hfirst hmbpos hout)⟩,
      fun hremv => ⟨fun h hread => hvalue _ (deltaNext_of_header hremv hread (readBlockHeader_first hread) rfl),
        fun code hread => hfault code (deltaNext_header_fault hremv hread)⟩⟩
  obtain ⟨hidle4, hvalue4, hfault4⟩ := exec_of_deltaNext (i := .dec4 arg) (d := s.d4)
    (put := fun x => (s.setD4 x.2).setR (sext64 x.1)) hrun rfl rfl
  obtain ⟨hidle5, hvalue5, hfault5⟩ := exec_of_deltaNext (i := .dec5 arg) (d := s.d5)
    (put := fun x => (s.setD5 x.2).setR x.1) hrun rfl rfl
  exact ⟨hidle4, hidle5, fun hact => hblock (hvalue4 hact) (hfault4 hact),
    fun hact => hblock (set := s.setD5) (ext := id) (hvalue5 hact) (hfault5 hact)⟩

end Sys2Proof.Machine
end

section
/-! PROOFS. The fault state and the way into it (rules R10, R342, R345 to R348, R357, R358): what one step can do, what
each command's body can raise, and that a fault leaves all else as it was. -/

namespace Sys2Proof.Machine

/-! ### What a step can do (rules R20, R348, R374) -/

theorem hostWrite_next {s t : State} {offset : Nat} {bytes : Bytes} (h : hostWrite s offset bytes = .next t) :
    t = s.setIB (s.ib.writeBytes offset bytes) := by
  unfold hostWrite at h
  split at h
  · cases h
  · injection h with h; exact h.symm

/-- The four ways a step can end: idle, a command, a write of IB, a hardware reset. -/
theorem step_cases {s t : State} (h : step s = .next t) :
    (s.port = [] ∧ t = s) ∨
      (∃ c rest, s.port = .command c :: rest ∧ presentCommand c (s.setPort rest) = .next t) ∨
      (∃ offset bytes rest, s.port = .writeIB offset bytes :: rest ∧
        t = (s.setPort rest).setIB (s.ib.writeBytes offset bytes)) ∨
      ∃ rest, s.port = .reset :: rest ∧ t = hardwareReset (s.setPort rest) := by
  unfold step at h
  split at h
  · next hport => injection h with h; exact .inl ⟨hport, h.symm⟩
  · next a rest hport =>
    cases a with
    | command c => exact .inr (.inl ⟨c, rest, hport, h⟩)
    | writeIB offset bytes => exact .inr (.inr (.inl ⟨offset, bytes, rest, hport, hostWrite_next h⟩))
    | reset => injection h with h; exact .inr (.inr (.inr ⟨rest, hport, h.symm⟩))

/-! ### What an operation can answer -/

/-- An operation that ends well has a result with `Q`, and one that does not raises one of `codes`. -/
def Answers {α : Type} (x : Except FaultCode α) (Q : α → Prop) (codes : List FaultCode) : Prop :=
  match x with
  | .ok a => Q a
  | .error e => e ∈ codes

section Rules
variable {α β : Type} {x : Except FaultCode α} {P Q : α → Prop} {codes : List FaultCode} {a : α} {e : FaultCode}

theorem Answers.ok (h : Q a) : Answers (.ok a) Q codes := h

theorem Answers.result (h : Answers x Q codes) (hx : x = .ok a) : Q a := by subst hx; exact h

theorem Answers.fault (h : Answers x Q codes) (hx : x = .error e) : e ∈ codes := by subst hx; exact h

theorem Answers.bind {f : α → Except FaultCode β} {Q : β → Prop} (hx : Answers x P codes)
    (hf : ∀ a, P a → Answers (f a) Q codes) : Answers (x >>= f) Q codes := by
  cases x with
  | error e => exact hx
  | ok a => exact hf a hx

/-- A check in front of an operation adds the fault it raises, whichever branch raises it. -/
theorem Answers.if_error {p : Prop} [Decidable p] (h : Answers x Q codes) :
    Answers (if p then .error e else x) Q (e :: codes) := by
  split
  · exact List.mem_cons_self
  · cases x with
    | error c => exact List.mem_cons_of_mem e h
    | ok a => exact h

theorem Answers.if_else_error {p : Prop} [Decidable p] (h : Answers x Q codes) :
    Answers (if p then x else .error e) Q (e :: codes) :=
  ite_not p (.error e) x ▸ h.if_error (p := ¬p)

/-- What an operation answers, where only its faults are of interest. -/
theorem answers_of_faults (h : ∀ {e}, x = .error e → e ∈ codes) : Answers x (fun _ => True) codes := by
  cases x with
  | error e => exact h rfl
  | ok a => exact trivial

theorem answers_of_capacity (h : ∀ {e}, x = .error e → e = .capacity) : Answers x (fun _ => True) [.capacity] :=
  answers_of_faults fun hx => List.mem_singleton.2 (h hx)

end Rules

/-! ### What the shared operations can answer (rules R9, R160, R180) -/

theorem takeByte_answers (m : Memory) (c : Cursor) : Answers (takeByte m c) (fun _ => True) [.readPastEnd] :=
  answers_of_faults fun h => List.mem_singleton.2 (takeByte_eq_error.1 h).2

section Shared
variable {s : State}

theorem appendOB_answers (hrun : s.Running) (b : Bytes) : Answers (appendOB s b) State.Running [.capacity] := by
  cases happ : appendOB s b with
  | error e => exact List.mem_singleton.2 (appendOB_eq_error.1 happ).2
  | ok t => obtain ⟨-, rfl⟩ := appendOB_eq_ok.1 happ; exact hrun

theorem takeRC_answers (hrun : s.Running) (n : Nat) :
    Answers (takeRC s n) (fun x => x.2.Running) [.readPastEnd] := by
  cases htake : takeRC s n with
  | error e => exact List.mem_singleton.2 (takeRC_eq_error.1 htake).2
  | ok x => obtain ⟨-, rfl⟩ := takeRC_eq_ok.1 htake; exact hrun

theorem readVarintRC_answers (hrun : s.Running) (n : Nat) :
    Answers (readVarintRC n s) (fun x => x.2.Running) [.readPastEnd, .varintUnterminated, .varintExcess] := by
  cases hread : readVarintRC n s with
  | error e => simpa [Answers] using readVarint_faults (readVarintRC_eq_error.1 hread)
  | ok x => obtain ⟨u, c, -, rfl⟩ := readVarintRC_eq_ok.1 hread; exact hrun

end Shared

/-! ### What the units can raise (rule R342) -/

theorem boolEncode_faults {cap : Nat} {e : BoolEnc} {b : Bool} {c : FaultCode} (h : boolEncode cap e b = .error c) :
    c = .capacity := by
  unfold boolEncode at h
  simp only at h
  split at h
  · rcases bind_eq_error.1 h with h | ⟨_, -, h⟩
    · exact (append_eq_error.1 h).2
    · cases h
  · cases h

theorem boolFinish_faults {cap : Nat} {e : BoolEnc} {c : FaultCode} (h : boolFinish cap e = .error c) :
    c = .capacity := by
  unfold boolFinish at h
  split at h
  · cases h
  · split at h
    · rcases bind_eq_error.1 h with h | ⟨_, -, h⟩
      · exact (append_eq_error.1 h).2
      · cases h
    · cases h

theorem boolDecode_answers (m : Memory) (d : BoolDec) : Answers (boolDecode m d) (fun _ => True) [.readPastEnd] := by
  unfold boolDecode
  split
  · exact (takeByte_answers m d.csr).bind fun _ _ => .ok trivial
  · exact trivial

theorem hybridInitPrefixed_answers (m : Memory) (d : HybridDec) (c : Cursor) :
    Answers (hybridInitPrefixed m d c) (fun _ => True) [.readPastEnd, .badWidth] := by
  refine answers_of_faults fun h => ?_
  rcases bind_eq_error.1 h with h | ⟨_, -, h⟩
  · exact List.mem_cons.2 (.inl (takeByte_eq_error.1 h).2)
  · simp only at h
    split at h
    · injection h with h; simp [← h]
    · cases h

theorem rleNext_answers (m : Memory) (d : HybridDec) :
    Answers (rleNext m d) (fun _ => True) [.readPastEnd, .varintUnterminated, .varintExcess] :=
  answers_of_faults fun h => by simpa using rleLoop_faults h

theorem deltaNext_answers {w : Nat} (m : Memory) (d : DeltaDec w) :
    Answers (deltaNext m d) (fun _ => True)
      [.readPastEnd, .varintUnterminated, .varintExcess, .badBlockHeader, .badWidth] :=
  answers_of_faults fun h => by simpa using deltaNext_faults h

/-! ### What a command can raise (rules R342, R357) -/

/-- A command that can raise `ENCODE_AFTER_FINISH` is the `ENC.u` of a unit `u`: that fault when the unit is finished,
else an encode step that raises `CAPACITY` only. -/
theorem exec_of_encodeAfterFinish_mem {i : Instr} {s : State} (hrun : s.Running)
    (hmem : .encodeAfterFinish ∈ mayRaise i) :
    ∃ u x, opcNo i = 0x40 + u ∧
      exec i s = command i s (if finFlag s u then .error .encodeAfterFinish else x) ∧
      Answers x State.Running [.capacity] := by
  cases i with
  | enc0 arg => exact ⟨0, _, rfl, rfl, (answers_of_capacity boolEncode_faults).bind fun _ _ => .ok hrun⟩
  | enc1 arg => exact ⟨1, _, rfl, rfl, (answers_of_capacity encode1_faults).bind fun _ _ => .ok hrun⟩
  | enc2 arg => exact ⟨2, _, rfl, rfl, (answers_of_capacity selfEncode_faults).bind fun _ _ => .ok hrun⟩
  | enc3 arg => exact ⟨3, _, rfl, rfl, (answers_of_capacity selfEncode_faults).bind fun _ _ => .ok hrun⟩
  | enc4 arg => exact ⟨4, _, rfl, rfl, (answers_of_capacity deltaBuffer_faults).bind fun _ _ => .ok hrun⟩
  | enc5 arg =>
    exact ⟨5, _, rfl, rfl, (answers_of_capacity deltaBuffer_faults).bind fun _ _ =>
      (answers_of_capacity lookahead_faults).bind fun _ _ => .ok hrun⟩
  | _ => simp [mayRaise] at hmem

theorem exec_answers_of_encode {i : Instr} {s : State} (hrun : s.Running) (hmem : .encodeAfterFinish ∈ mayRaise i) :
    ∃ body, exec i s = command i s body ∧ Answers body State.Running [.encodeAfterFinish, .capacity] :=
  let ⟨_, _, _, hexec, hstep⟩ := exec_of_encodeAfterFinish_mem hrun hmem
  ⟨_, hexec, hstep.if_error⟩

/-- The body of every command leaves the block running or raises a fault of the command's row (rule R342). -/
theorem exec_answers (i : Instr) {s : State} (hrun : s.Running) :
    ∃ body, exec i s = command i s body ∧ Answers body State.Running (mayRaise i) := by
  cases i with
  | nop | obclr | rcunsl | vset | bitw32 | bitw64 | zze32 | zze64 | zzd32 | zzd64
  | rst0 | rst1 | rst2 | rst3 | rst4 | rst5 | size0 | size1 | size2 | size3 | size4 | size5
  | est0 | est1 | est2 | est3 | est4 | est5 | dinit0 | dinit1 | dinit4 | dinit5 =>
    refine ⟨.ok _, rfl, ?_⟩; exact hrun
  | obpoke | rcatt | rcslice => refine ⟨_, rfl, .if_error ?_⟩; exact .ok hrun
  | wfix32 | wfix64 | wvar32 | wvar64 | wzz32 | wzz64 | wpack32 | wpack64 | wpbool =>
    exact ⟨_, rfl, appendOB_answers hrun _⟩
  | rfix32 | rfix64 | rpack32 | rpack64 | rpbool => exact ⟨_, rfl, (takeRC_answers hrun _).bind fun _ h => .ok h⟩
  | rvar32 | rvar64 | rzz32 | rzz64 => exact ⟨_, rfl, (readVarintRC_answers hrun _).bind fun _ h => .ok h⟩
  | enc0 | enc1 | enc2 | enc3 | enc4 | enc5 => exact exec_answers_of_encode hrun (by simp [mayRaise])
  | fin0 => exact ⟨_, rfl, (answers_of_capacity boolFinish_faults).bind fun _ _ => .ok hrun⟩
  | fin1 => exact ⟨_, rfl, (answers_of_capacity hybridFinish_faults).bind fun _ _ => .ok hrun⟩
  | fin2 | fin3 => exact ⟨_, rfl, (answers_of_capacity selfUnitFinish_faults).bind fun _ _ => .ok hrun⟩
  | fin4 | fin5 => exact ⟨_, rfl, (answers_of_capacity deltaFinish_faults).bind fun _ _ => .ok hrun⟩
  | wto0 =>
    refine ⟨_, rfl, (answers_of_capacity boolFinish_faults).bind fun _ _ => appendOB_answers ?_ _⟩; exact hrun
  | wto1 =>
    refine ⟨_, rfl, (answers_of_capacity hybridFinish_faults).bind fun _ _ => appendOB_answers ?_ _⟩; exact hrun
  | wto2 | wto3 =>
    refine ⟨_, rfl, (answers_of_capacity selfUnitFinish_faults).bind fun _ _ => appendOB_answers ?_ _⟩; exact hrun
  | wto4 | wto5 =>
    refine ⟨_, rfl, (answers_of_capacity deltaFinish_faults).bind fun _ _ => appendOB_answers ?_ _⟩; exact hrun
  | dinit3 => exact ⟨_, rfl, (hybridInitPrefixed_answers s.ib s.d3 s.rc).bind fun _ _ => .ok hrun⟩
  | dec0 => refine ⟨_, rfl, .if_else_error ((boolDecode_answers s.ib s.d0).bind fun _ _ => ?_)⟩; exact .ok hrun
  | dec1 | dec3 => refine ⟨_, rfl, .if_else_error ((rleNext_answers s.ib _).bind fun _ _ => ?_)⟩; exact .ok hrun
  | dec4 | dec5 => refine ⟨_, rfl, .if_else_error ((deltaNext_answers s.ib _).bind fun _ _ => ?_)⟩; exact .ok hrun

/-- A command that leaves a running block faulted has entered a fault its body can raise, or is illegal. -/
theorem fault_of_answers {i : Instr} {s t : State} {body : Except FaultCode State} {codes : List FaultCode}
    (hexec : exec i s = command i s body) (hbody : Answers body State.Running codes) (hrun : s.Running)
    (hnext : exec i s = .next t) (hfault : t.fault = true) :
    ∃ code, t = enterFault code (encode i) s ∧ (code ∈ codes ∨ i.wf = false ∧ code = .illegalCommand) := by
  rcases command_cases (hexec ▸ hnext) with ⟨hs, -⟩ | ⟨-, -, hok⟩ | ⟨-, -, code, herror, rfl⟩ | ⟨-, hwf, rfl⟩
  · exact absurd (hs.symm.trans hrun) (by decide)
  · exact absurd (hfault.symm.trans (hbody.result hok)) (by decide)
  · exact ⟨code, rfl, .inl (hbody.fault herror)⟩
  · exact ⟨_, rfl, .inr ⟨hwf, rfl⟩⟩

/-- `FCODE` 0x10 is `ENCODE_AFTER_FINISH` (rule R341). -/
theorem eq_encodeAfterFinish_of_faultNumber {code : FaultCode} (h : faultNumber code = 0x10) :
    code = .encodeAfterFinish := by
  cases code with
  | encodeAfterFinish => rfl
  | _ => exact absurd h (by decide)

/-- A decode command of a decoder that is not constructed (rule R358). -/
theorem exec_of_act_false {i : Instr} {s : State} {act : Bool} {x : Except FaultCode State} (hrun : s.Running)
    (hwf : i.wf = true) (hexec : exec i s = command i s (if act then x else .error .decoderNotInitialised))
    (hact : act = false) : exec i s = .next (enterFault .decoderNotInitialised (encode i) s) :=
  hexec.trans (command_error hrun hwf (if_neg (by simp [hact])))

/-- An encode command of a unit that is finished (rule R357). -/
theorem exec_of_fin_true {i : Instr} {s : State} {fin : Bool} {x : Except FaultCode State} (hrun : s.Running)
    (hwf : i.wf = true) (hexec : exec i s = command i s (if fin then .error .encodeAfterFinish else x))
    (hfin : fin = true) : exec i s = .next (enterFault .encodeAfterFinish (encode i) s) :=
  hexec.trans (command_error hrun hwf (if_pos hfin))

/-! ### The statements -/

/-- Settles O13: the body of the command raises a fault of its row, and the prelude none, since the command is legal. -/
theorem onlyListedFaultsAreRaised : Obligations.OnlyListedFaultsAreRaised := by
  intro i s hwf hrun
  obtain ⟨t, ht⟩ := exec_next i s
  obtain ⟨body, hexec, hbody⟩ := exec_answers i hrun
  refine ⟨t, ht, fun hfault => ?_⟩
  obtain ⟨code, rfl, hlisted | ⟨hillegal, -⟩⟩ := fault_of_answers hexec hbody hrun ht hfault
  · exact ⟨code, hlisted, rfl⟩
  · exact absurd (hwf.symm.trans hillegal) (by decide)

/-- Settles O12: a legal command has its effect, which leaves the fault registers alone, or enters a fault under its own
word; an illegal word enters its fault. -/
theorem faultsArePrecise : Obligations.FaultsArePrecise := by
  intro c s hrun
  cases hdec : decode c with
  | error e =>
    have hillegal : ¬LegalWord c.cw := fun h => by
      obtain ⟨i, hi⟩ := (decode_isOk_iff c).2 h
      cases hdec.symm.trans hi
    exact ⟨_, presentCommand_of_illegal hrun hillegal, .inr ⟨.illegalCommand, rfl⟩⟩
  | ok i =>
    obtain ⟨-, hword⟩ := wf_and_encode_of_decode hdec
    obtain ⟨t, ht⟩ := exec_next i s
    refine ⟨t, (presentCommand_of_decode hdec s).trans ht, ?_⟩
    rcases exec_ends ht with ⟨hfault, -⟩ | ⟨-, code, rfl⟩ | ⟨-, -, heff⟩
    · exact absurd (hfault.symm.trans hrun) (by decide)
    · exact .inr ⟨code, by rw [hword]; rfl⟩
    · obtain ⟨hfault, hfcode, hfcmd, hfarg, -⟩ := effect_keeps heff
      exact .inl ⟨hfault.trans hrun, hfcode, hfcmd, hfarg⟩

/-- Settles O11: an idle step, a refused command and a write of IB all keep `FAULT`. -/
theorem onlyResetClearsFault : Obligations.OnlyResetClearsFault := by
  intro s t hstep hfault hclear
  have hkept (hkeep : t.fault = s.fault) : False := by simp [hkeep, hfault] at hclear
  rcases step_cases hstep with ⟨-, rfl⟩ | ⟨c, rest, -, hpresent⟩ | ⟨offset, bytes, rest, -, rfl⟩ | ⟨rest, hport, -⟩
  · exact (hkept rfl).elim
  · have hrefused := presentCommand_of_fault c (s := s.setPort rest) hfault
    obtain rfl : s.setPort rest = t := by injection hrefused.symm.trans hpresent
    exact (hkept rfl).elim
  · exact (hkept rfl).elim
  · exact ⟨rest, hport⟩

/-- Settles O36: the check comes before the encode step, and neither that step nor any other command raises the
fault. -/
theorem encodeAfterFinishFaults : Obligations.EncodeAfterFinishFaults := by
  refine ⟨fun arg s hrun => ⟨exec_of_fin_true hrun rfl rfl, exec_of_fin_true hrun rfl rfl,
    exec_of_fin_true hrun rfl rfl, exec_of_fin_true hrun rfl rfl, exec_of_fin_true hrun rfl rfl,
    exec_of_fin_true hrun rfl rfl⟩, ?_⟩
  intro i s t hrun hnext hfault hcode
  obtain ⟨body, hexec, hbody⟩ := exec_answers i hrun
  obtain ⟨code, rfl, hraised⟩ := fault_of_answers hexec hbody hrun hnext hfault
  obtain rfl := eq_encodeAfterFinish_of_faultNumber hcode
  have hlisted : .encodeAfterFinish ∈ mayRaise i := hraised.resolve_right (by simp)
  obtain ⟨u, x, hopc, hguard, hx⟩ := exec_of_encodeAfterFinish_mem hrun hlisted
  refine ⟨u, hopc, ?_⟩
  by_contra hopen
  rw [if_neg hopen] at hguard
  obtain ⟨code, heq, hother⟩ := fault_of_answers hguard hx hrun hnext hfault
  obtain rfl := eq_encodeAfterFinish_of_faultNumber ((congrArg State.fcode heq).symm.trans hcode)
  simp at hother

/-- Settles O10: every command is a body behind the prelude, and the prelude refuses it; so is a word that is none. -/
theorem faultedBlockRefusesEveryCommand : Obligations.FaultedBlockRefusesEveryCommand := by
  refine fun s hfault => ⟨fun c => presentCommand_of_fault c hfault, fun i => ?_⟩
  obtain ⟨body, hexec⟩ := exec_eq_command i s
  exact hexec.trans (command_of_fault hfault)

/-- Settles O37: each decode command checks `ACT` before it reads anything. -/
theorem decodeBeforeInitFaults : Obligations.DecodeBeforeInitFaults :=
  fun _ _ hrun => ⟨exec_of_act_false hrun rfl rfl, exec_of_act_false hrun rfl rfl, exec_of_act_false hrun rfl rfl,
    exec_of_act_false hrun rfl rfl, exec_of_act_false hrun rfl rfl⟩

end Sys2Proof.Machine
end

section
/-! PROOFS. The invariant of rule R38, unit by unit: what each operation of an encoder or a decoder leaves of it. -/

namespace Sys2Proof.Machine

theorem append_length_le {cap : Nat} {buf b x : Bytes} (h : append cap buf b = .ok x) : x.length ≤ cap := by
  obtain ⟨hle, rfl⟩ := append_eq_ok.1 h
  rwa [List.length_append]

section Encoders
variable {p : Config.Params}

/-! ### Unit 0 (rules R202 to R204) -/

/-- A unit whose octet is empty. -/
theorem BoolEnc.inv_of_empty_octet {st : Bytes} {fin : Bool} (hst : st.length ≤ p.stcap) :
    BoolEnc.Inv p ⟨st, fin, 0, 0⟩ :=
  ⟨hst, Nat.zero_le 7, fun _ _ => BitVec.getLsbD_zero, fun _ => rfl⟩

theorem boolEncode_keeps_inv {e e' : BoolEnc} {b : Bool} (hinv : e.Inv p) (hfin : e.fin = false)
    (h : boolEncode p.stcap e b = .ok e') : e'.Inv p := by
  have hcount := hinv.count
  by_cases h7 : e.bcnt = 7
  · rw [boolEncode_eighth h7] at h
    obtain ⟨st, hst, h⟩ := bind_eq_ok.1 h
    injection h with h
    subst h
    exact BoolEnc.inv_of_empty_octet (append_length_le hst)
  · rw [boolEncode_partial (by omega)] at h
    injection h with h
    subst h
    refine ⟨hinv.staged, by dsimp only; omega, fun k hk => ?_, fun hdone => ?_⟩
    · dsimp only at hk ⊢
      rw [octetWith_getLsbD hcount b (by omega), hinv.unused k (by omega), decide_eq_false (by omega)]
      rfl
    · cases hfin.symm.trans hdone

theorem boolFinish_keeps_inv {e e' : BoolEnc} (hinv : e.Inv p) (h : boolFinish p.stcap e = .ok e') : e'.Inv p := by
  cases hfin : e.fin with
  | true =>
    rw [boolFinish, if_pos hfin] at h
    injection h with h
    exact h ▸ hinv
  | false =>
    rw [boolFinish_eq hinv.bacc_eq_zero hinv.staged hfin] at h
    obtain ⟨st, hst, h⟩ := bind_eq_ok.1 h
    injection h with h
    subst h
    exact BoolEnc.inv_of_empty_octet (append_length_le hst)

/-! ### The hybrid engine (rules R222 to R229) -/

/-- An engine with nothing pending. -/
theorem HybridEnc.inv_of_idle {e : HybridEnc} (hst : e.st.length ≤ p.stcap) (hwid : e.wid ≤ 32) (hrn : e.rn = 0)
    (hoct : e.oct = []) (hpr : e.pr = []) (hnoct : e.noct = 0) : e.Inv p where
  staged := hst
  width := hwid
  partialOct := by simp [hoct]
  exclusive _ := hrn
  pending := by simp [hpr, hnoct]
  pendingFits := by simp [hpr]
  run := by simp [hrn]
  octuplets := by simp [hnoct]
  zeroWidth _ := ⟨hoct, hnoct⟩
  finished _ := ⟨hrn, hoct, hnoct⟩

/-- An engine that has a width counts its octuplets in the run buffer, whose capacity is below `2^31` (rule R227). -/
theorem noct_le_maxRun {e : HybridEnc} (hcap : p.prcap < 2 ^ 31) (hwid : 0 < e.wid)
    (hpending : e.pr.length = e.noct * e.wid) (hfits : e.pr.length ≤ p.prcap) : e.noct ≤ Config.maxRun := by
  have hle := Nat.le_mul_of_pos_right e.noct hwid
  rw [Config.maxRun]
  omega

/-- Values into the octuplets of an engine that has a width and no candidate. -/
theorem HybridEnc.Inv.buffered {e : HybridEnc} (hinv : e.Inv p) (hcap : p.prcap < 2 ^ 31) (hfin : e.fin = false)
    (hwid : 0 < e.wid) (hrn : e.rn = 0) {vs : List Word}
    (hfits : e.pr.length + (e.oct.length + vs.length) / 8 * e.wid ≤ p.prcap) : (e.buffered vs).Inv p := by
  have hpending := buffered_pending hinv.pending vs
  have hlen : (e.buffered vs).pr.length ≤ p.prcap := by
    rw [hpending, buffered_noct, Nat.add_mul, ← hinv.pending]
    exact hfits
  exact {
    staged := hinv.staged
    width := hinv.width
    partialOct := by rw [buffered_oct_length]; omega
    exclusive := fun _ => hrn
    pending := hpending
    pendingFits := hlen
    run := hinv.run
    octuplets := noct_le_maxRun hcap hwid hpending hlen
    zeroWidth := fun h0 => absurd h0 (Nat.ne_of_gt hwid)
    finished := fun hdone => by cases hfin.symm.trans hdone }

/-- A candidate of an engine with no octuplet begun may be any value, repeated up to the longest run. -/
theorem HybridEnc.Inv.candidate {e : HybridEnc} (hinv : e.Inv p) (hfin : e.fin = false) (hoct : e.oct = []) (v : Word)
    {n : Nat} (hn : n ≤ Config.maxRun) : HybridEnc.Inv p { e with rv := v, rn := n } :=
  { hinv with
    exclusive := fun hne => absurd hoct hne
    run := hn
    finished := fun hdone => by cases hfin.symm.trans hdone }

/-- The pending runs staged. -/
theorem HybridEnc.Inv.closed {e : HybridEnc} (hinv : e.Inv p) (hoct : e.oct = [])
    (hfits : e.closed.st.length ≤ p.stcap) : e.closed.Inv p :=
  HybridEnc.inv_of_idle hfits hinv.width rfl hoct rfl rfl

/-- A short candidate absorbed into octuplets, which no engine of width 0 does (rule R227). -/
theorem HybridEnc.Inv.absorb {e : HybridEnc} {v : Word} (hinv : e.Inv p) (hcap : p.prcap < 2 ^ 31)
    (hfin : e.fin = false) (hoct : e.oct = []) (hrn : 0 < e.rn) (hshort : e.rn < threshold e.wid)
    (hfits : e.pr.length + (absorbed e v).length / 8 * e.wid ≤ p.prcap) : (e.absorb v).Inv p := by
  have hwid : 0 < e.wid := by
    rcases Nat.eq_zero_or_pos e.wid with h0 | hpos
    · rw [threshold, if_pos h0] at hshort
      omega
    · exact hpos
  have hidle : HybridEnc.Inv p { e with rn := 0 } :=
    hinv.candidate hfin hoct e.rv (Nat.zero_le _)
  have hlen := absorbed_length e v
  have hbuffered := hidle.buffered hcap hfin hwid rfl (vs := absorbed e v)
    (by dsimp only; rw [hoct, List.length_nil, Nat.zero_add]; exact hfits)
  rw [HybridEnc.absorb]
  by_cases h8 : e.rn % 8 = 0
  · have hnone : (e.buffered (absorbed e v)).oct = [] := by
      apply List.eq_nil_of_length_eq_zero
      rw [buffered_oct_length, hlen, if_pos h8, hoct, List.length_nil]
      omega
    rw [if_pos h8, if_pos h8]
    exact hbuffered.candidate hfin hnone v (by decide)
  · rw [if_neg h8, if_neg h8]
    exact hbuffered

theorem encode1_keeps_inv {e e' : HybridEnc} {v : Word} (hcap : p.prcap < 2 ^ 31) (hinv : e.Inv p)
    (hfin : e.fin = false) (h : encode1 p e v = .ok e') : e'.Inv p := by
  by_cases hoct : e.oct = []
  · rcases Nat.eq_zero_or_pos e.rn with hrn | hrn
    · rw [encode1_starts hoct hrn] at h
      injection h with h
      exact h ▸ hinv.candidate hfin hoct v (by decide)
    by_cases hv : v = e.rv
    · rw [encode1_extends hoct hrn hv] at h
      split at h
      · cases h
      · next hmax =>
        injection h with h
        exact h ▸ hinv.candidate hfin hoct e.rv (Nat.lt_of_le_of_ne hinv.run hmax)
    by_cases hlong : threshold e.wid ≤ e.rn
    · rw [encode1_closes hoct hrn hv hlong, flushRLE_eq hinv.shape.pr_eq_nil] at h
      obtain ⟨e₁, hclosed, h⟩ := bind_eq_ok.1 h
      split at hclosed
      · next hfits =>
        injection hclosed with hclosed
        injection h with h
        subst hclosed h
        exact (hinv.closed hoct hfits).candidate hfin hoct v (by decide)
      · cases hclosed
    · rw [encode1_absorbs hoct hrn hv (Nat.lt_of_not_le hlong) hinv.pendingFits] at h
      split at h
      · next hfits =>
        injection h with h
        exact h ▸ hinv.absorb hcap hfin hoct hrn (Nat.lt_of_not_le hlong) hfits
      · cases h
  · have hwid : 0 < e.wid := Nat.pos_of_ne_zero fun h0 => hoct (hinv.zeroWidth h0).1
    rw [encode1_midOctuplet hoct, bufferList_eq hinv.partialOct hinv.pendingFits] at h
    split at h
    · next hfits =>
      injection h with h
      exact h ▸ hinv.buffered hcap hfin hwid (hinv.exclusive hoct) hfits
    · cases h

theorem encodeAll_keeps_inv (hcap : p.prcap < 2 ^ 31) : ∀ {vs : List Word} {e e' : HybridEnc}, e.Inv p →
    e.fin = false → encodeAll p vs e = .ok e' → e'.Inv p
  | [], e, e', hinv, _, h => by injection h with h; exact h ▸ hinv
  | v :: vs, e, e', hinv, hfin, h => by
    obtain ⟨e₁, hv, h⟩ := (bind_eq_ok (x := encode1 p e v)).1 h
    exact encodeAll_keeps_inv hcap (encode1_keeps_inv hcap hinv hfin hv) ((encode1_same hv).1.trans hfin) h

/-- A finish leaves nothing pending, and so does the flag set behind it. -/
theorem finish1_keeps_inv {e e' : HybridEnc} (hinv : e.Inv p) (h : finish1 p e = .ok e') (fin : Bool) :
    HybridEnc.Inv p { e' with fin := fin } := by
  rw [finish1_eq hinv.shape hinv.staged hinv.pendingFits] at h
  split at h
  · next hfits =>
    injection h with h
    subst h
    exact HybridEnc.inv_of_idle hfits.1 hinv.width rfl rfl rfl rfl
  · cases h

/-! ### Unit 1 (rules R230 to R232) -/

theorem hybridFinish_keeps_inv {e e' : HybridEnc} (hinv : e.Inv p) (h : hybridFinish p e = .ok e') : e'.Inv p := by
  unfold hybridFinish at h
  split at h
  · injection h with h
    exact h ▸ hinv
  · obtain ⟨e₁, hfinish, h⟩ := bind_eq_ok.1 h
    injection h with h
    exact h ▸ finish1_keeps_inv hinv hfinish true

theorem engineClear_inv {e : HybridEnc} {st : Bytes} {fin : Bool} {w : Nat} (hst : st.length ≤ p.stcap)
    (hw : w ≤ 32) : HybridEnc.Inv p { engineClear e with st := st, fin := fin, wid := w } :=
  HybridEnc.inv_of_idle hst hw rfl rfl rfl rfl

/-! ### Units 2 and 3 (rules R236 to R239) -/

theorem selfEncode_keeps_inv {u u' : SelfEnc} {v : Word} (hinv : u.Inv p) (h : selfEncode p u v = .ok u') :
    u'.Inv p := by
  obtain ⟨hroom, rfl⟩ := selfEncode_eq_ok.1 h
  refine ⟨hinv.engine, ?_, ?_, hinv.idle⟩
  · rw [List.length_append, List.length_singleton]
    exact hroom
  · rw [List.map_append, maxOf, List.foldl_append, ← maxOf, ← hinv.wmax]
    rfl

theorem stageWidth_length_le {prefixed : Bool} {st st' : Bytes} {w : Nat} (hst : st.length ≤ p.stcap)
    (h : stageWidth p prefixed st w = .ok st') : st'.length ≤ p.stcap := by
  unfold stageWidth at h
  split at h
  · exact append_length_le h
  · injection h with h
    exact h ▸ hst

theorem selfUnitFinish_keeps_inv {prefixed : Bool} {u u' : SelfEnc} (hcap : p.prcap < 2 ^ 31) (hinv : u.Inv p)
    (h : selfUnitFinish p prefixed u = .ok u') : u'.Inv p := by
  unfold selfUnitFinish at h
  split at h
  · injection h with h
    exact h ▸ hinv
  · next hfin =>
    obtain ⟨u₁, hself, h⟩ := bind_eq_ok.1 h
    injection h with h
    subst h
    obtain ⟨st, hstage, hself⟩ := bind_eq_ok.1 hself
    obtain ⟨e₁, henc, hself⟩ := bind_eq_ok.1 hself
    obtain ⟨e₂, hfinish, hself⟩ := bind_eq_ok.1 hself
    injection hself with hself
    subst hself
    have hstart : HybridEnc.Inv p { engineClear u.hyb with wid := u.wmax, st := st } :=
      engineClear_inv (stageWidth_length_le hinv.engine.staged hstage) hinv.wmax_le
    have hreplay := encodeAll_keeps_inv hcap hstart (by simpa using hfin) henc
    exact ⟨finish1_keeps_inv hreplay hfinish true, hinv.raw, hinv.wmax, fun hopen => by cases hopen⟩

theorem selfReset_inv (u : SelfEnc) : (selfReset u).Inv p :=
  ⟨engineClear_inv (Nat.zero_le _) (Nat.zero_le _), Nat.zero_le _, rfl, fun _ => ⟨rfl, rfl, rfl, rfl⟩⟩

/-! ### Units 4 and 5 (rules R288 to R298) -/

section Delta
variable {w : Nat} {e e' : DeltaEnc w}

theorem DeltaEnc.inv_of_open (hst : e.st.length ≤ p.stcap) (hcount : e.vb.length ≤ 129) (hfin : e.fin = false) :
    e.Inv p :=
  ⟨hst, hcount, fun hdone => by cases hfin.symm.trans hdone⟩

theorem deltaBuffer_keeps_inv {v : BitVec w} (hinv : e.Inv p) (hfin : e.fin = false)
    (h : deltaBuffer p.stcap e v = .ok e') : e'.Inv p := by
  obtain ⟨e₁, hfull, rfl⟩ := deltaBuffer_eq_ok.1 h
  rcases flushFull_eq_ok.1 hfull with ⟨hroom, rfl⟩ | ⟨-, hfits, rfl⟩
  · have hcount : e₁.vb.length ≤ 129 := hinv.count
    refine DeltaEnc.inv_of_open hinv.staged ?_ hfin
    rw [List.length_append, List.length_singleton]
    omega
  · refine DeltaEnc.inv_of_open ?_ (by decide : 1 ≤ 129) hfin
    rw [List.length_append]
    exact hfits

theorem lookahead_keeps_inv (hinv : e.Inv p) (hfin : e.fin = false) (h : lookahead p.stcap e = .ok e') :
    e'.Inv p := by
  rcases lookahead_eq_ok h with rfl | ⟨-, k, -, hfits, rfl⟩
  · exact hinv
  · refine DeltaEnc.inv_of_open ?_ ?_ hfin
    · rw [List.length_append]
      exact hfits
    · rw [List.length_drop]
      exact (Nat.sub_le _ _).trans hinv.count

theorem deltaFinish_keeps_inv (hinv : e.Inv p) (h : deltaFinish p.stcap e = .ok e') : e'.Inv p := by
  unfold deltaFinish at h
  split at h
  · injection h with h
    exact h ▸ hinv
  · obtain ⟨e₁, hflush, h⟩ := bind_eq_ok.1 h
    injection h with h
    subst h
    rcases flushAll_eq_ok.1 hflush with ⟨hnone, rfl⟩ | ⟨-, hfits, rfl⟩
    · exact ⟨hinv.staged, hinv.count, fun _ => hnone⟩
    · exact ⟨by rw [List.length_append]; exact hfits, Nat.zero_le _, fun _ => rfl⟩

theorem DeltaEnc.inv_empty : DeltaEnc.Inv p ({} : DeltaEnc w) :=
  ⟨Nat.zero_le _, Nat.zero_le _, fun _ => rfl⟩

end Delta

end Encoders

section Decoders
variable {m : Memory} {limit : Word}

/-! ### Decoder unit 0 (rules R208, R209) -/

theorem boolDecode_keeps_inv {d d' : BoolDec} {b : Bool} (hinv : d.Inv limit) (h : boolDecode m d = .ok (b, d')) :
    d'.Inv limit := by
  unfold boolDecode at h
  split at h
  · obtain ⟨⟨y, c⟩, hbyte, h⟩ := bind_eq_ok.1 h
    injection h with h
    injection h with _ h
    subst h
    exact ⟨fun hact => (takeByte_moved hbyte).1.within (hinv.cursor hact), Nat.le_succ 7⟩
  · injection h with h
    injection h with _ h
    subst h
    exact ⟨hinv.cursor, (Nat.sub_le _ _).trans hinv.count⟩

/-! ### Decoder units 1 and 3 (rules R261 to R265) -/

theorem rleLoop_keeps_inv : ∀ {fuel : Nat} {d : HybridDec} {r : Word × HybridDec}, d.Inv limit →
    rleLoop m fuel d = .ok r → r.2.Inv limit
  | 0, _, _, _, h => by cases h
  | fuel + 1, d, r, hinv, h => by
    obtain ⟨x, d₁, hpass, (⟨v, -, rfl⟩ | ⟨-, hloop⟩)⟩ := rleLoop_succ.1 h
    · exact rlePass_keeps_inv hinv hpass
    · exact rleLoop_keeps_inv (rlePass_keeps_inv hinv hpass) hloop

theorem hybridInit_inv (d : HybridDec) {c : Cursor} {w : Nat} (hc : c.Within limit) (hw : w ≤ 32) :
    (hybridInit d c w).Inv limit where
  cursor _ := hc
  width := hw
  rem := by simp [hybridInit]
  val := by simp [hybridInit]
  opos := Nat.le_refl 8
  loaded hlt := absurd hlt (Nat.lt_irrefl 8)

theorem hybridInitPrefixed_inv {d d' : HybridDec} {c : Cursor} (hc : c.Within limit)
    (h : hybridInitPrefixed m d c = .ok d') : d'.Inv limit := by
  obtain ⟨⟨y, c'⟩, hbyte, h⟩ := bind_eq_ok.1 h
  simp only at h
  split at h
  · cases h
  · next hwidth =>
    injection h with h
    exact h ▸ hybridInit_inv d ((takeByte_moved hbyte).1.within hc) (Nat.le_of_not_lt hwidth)

/-! ### Decoder units 4 and 5 (rules R321 to R327) -/

section Delta
variable {w : Nat} {d d' : DeltaDec w}

theorem deltaInit_inv {c : Cursor} {old : Word} (hinv : d.Inv old) (hc : c.Within limit) :
    (deltaInit d c).Inv limit where
  cursor _ := hc
  remv := Nat.zero_le _
  firstOwed hfirst := by cases hfirst
  mbpos := Nat.le_refl 0
  mbn := Nat.le_refl 0
  msz := ⟨Nat.zero_le _, rfl⟩
  widths := hinv.widths
  mbidx := Nat.zero_le _
  covered := Nat.zero_le _

/-- A block just announced: its first value is owed, and its mini-blocks cover the deltas. -/
theorem startBlock_inv {c : Cursor} {vc msz : Nat} {v : BitVec w} {mind : DWord} {ws : List Byte}
    (hc : d.act = true → c.Within limit) (hvc : 1 ≤ vc ∧ vc ≤ 129) (hmsz : msz ≤ 128 ∧ msz % 8 = 0)
    (hws : ws.length ≤ 16 ∧ ∀ y ∈ ws, y.toNat ≤ maxMiniWidth w) (hcovered : vc - 1 ≤ ws.length * msz) :
    DeltaDec.Inv limit { startBlock d c vc msz v mind with widths := ws } where
  cursor := hc
  remv := hvc.2
  firstOwed _ := hvc.1
  mbpos := Nat.le_refl 0
  mbn := Nat.zero_le _
  msz := hmsz
  widths := hws
  mbidx := Nat.zero_le _
  covered := by simpa [startBlock] using hcovered

theorem readBlockHeader_keeps_inv (hw : 0 < w) (hinv : d.Inv limit) (h : readBlockHeader m d = .ok d') :
    d'.Inv limit := by
  obtain ⟨bs, c₁, mc, c₂, vc, c₃, u, c₄, h₁, h₂, h₃, h₄, hgood, hblock⟩ := readBlockHeader_eq_ok h
  have hfields : d.csr.Moved c₄ :=
    (((readVarint_moved (by decide) h₁).1.trans (readVarint_moved (by decide) h₂).1).trans
      (readVarint_moved (by decide) h₃).1).trans (readVarint_moved hw h₄).1
  have hgood : ¬headerBad bs.toNat mc.toNat vc.toNat = true := by simp [hgood]
  rcases hblock with ⟨hmc, rfl⟩ | ⟨hmc, md, c₅, ws, c₆, h₅, h₆, hws, rfl⟩
  · rw [count_eq_one_of_good hgood hmc]
    exact startBlock_inv (ws := d.widths) (fun hact => hfields.within (hinv.cursor hact)) (by decide) (by decide)
      hinv.widths (Nat.zero_le _)
  · have hmoved : d.csr.Moved c₆ := (hfields.trans (readVarint_moved (by decide) h₅).1).trans (take_moved h₆).1
    have hlen : ws.length = mc.toNat := (take_moved h₆).2.1
    rw [headerBad_iff] at hgood
    have hsize := Nat.div_le_self bs.toNat mc.toNat
    have hblocks : mc.toNat * (bs.toNat / mc.toNat) = bs.toNat :=
      Nat.mul_div_cancel' (Nat.dvd_of_mod_eq_zero (by omega))
    exact startBlock_inv (fun hact => hmoved.within (hinv.cursor hact)) (by omega) (by omega) ⟨by omega, hws⟩
      (by rw [hlen, hblocks]; omega)

/-- The next mini-block of a block that still owes deltas holds at least one of them, and the later ones the rest. -/
theorem loadMini_keeps_inv (hinv : d.Inv limit) (hremv : 0 < d.remv) (hfirst : d.first = false)
    (hmbpos : d.mbpos = d.mb.length) (h : loadMini m d = .ok d') : d'.Inv limit ∧ d'.mbpos < d'.mb.length := by
  obtain ⟨b, c, htake, rfl⟩ := loadMini_eq_ok h
  have hcovered := hinv.covered
  rw [hfirst, hmbpos, Nat.sub_self, if_neg Bool.false_ne_true, Nat.sub_zero, Nat.zero_add] at hcovered
  obtain ⟨n, hn⟩ : ∃ n, d.widths.length - d.mbidx = n + 1 := by
    refine Nat.exists_eq_succ_of_ne_zero fun h0 => ?_
    rw [h0, Nat.zero_mul] at hcovered
    omega
  rw [hn, Nat.succ_mul] at hcovered
  have hmsz : 0 < d.msz := by
    refine Nat.pos_of_ne_zero fun h0 => ?_
    rw [h0, Nat.mul_zero] at hcovered
    omega
  have hlen (x : Nat) : ((unpack b x (min d.msz d.remv)).map (BitVec.ofNat 64)).length = min d.msz d.remv := by
    rw [List.length_map, unpack_length]
  refine ⟨{ hinv with
    cursor := fun hact => (take_moved htake).1.within (hinv.cursor hact)
    mbpos := Nat.zero_le _
    mbn := by rw [hlen]; exact Nat.min_le_left _ _
    mbidx := by dsimp only; omega
    covered := ?_ }, ?_⟩
  · dsimp only
    rw [hlen, hfirst, if_neg Bool.false_ne_true, show d.widths.length - (d.mbidx + 1) = n by omega]
    omega
  · dsimp only
    rw [hlen]
    omega

/-- One value more of a loaded mini-block. -/
theorem deltaAdvance_keeps_inv (hinv : d.Inv limit) (hfirst : d.first = false) (hmbpos : d.mbpos < d.mb.length) :
    (deltaAdvance d).2.Inv limit := by
  have hcovered := hinv.covered
  rw [hfirst, if_neg Bool.false_ne_true] at hcovered
  exact { hinv with
    remv := (Nat.sub_le _ _).trans hinv.remv
    firstOwed := fun h => by cases hfirst.symm.trans h
    mbpos := hmbpos
    covered := by
      simp only [deltaAdvance, hfirst]
      rw [if_neg Bool.false_ne_true]
      omega }

/-- The first value of a block returned: its deltas are still owed. -/
theorem firstReturned_inv (hinv : d.Inv limit) (hfirst : d.first = true) :
    DeltaDec.Inv limit { d with first := false, remv := d.remv - 1 } := by
  have hcovered := hinv.covered
  rw [hfirst, if_pos rfl] at hcovered
  exact { hinv with
    remv := (Nat.sub_le _ _).trans hinv.remv
    firstOwed := fun h => by cases h
    covered := hcovered }

theorem deltaNext_keeps_inv (hw : 0 < w) {r : BitVec w × DeltaDec w} (hinv : d.Inv limit)
    (h : deltaNext m d = .ok r) : r.2.Inv limit := by
  obtain ⟨d₁, hblock, hvalue⟩ := deltaNext_eq_ok.1 h
  obtain ⟨hinv₁, hremv⟩ : d₁.Inv limit ∧ 0 < d₁.remv := by
    unfold nextBlock at hblock
    split at hblock
    · have hinv₁ := readBlockHeader_keeps_inv hw hinv hblock
      exact ⟨hinv₁, hinv₁.firstOwed (readBlockHeader_first hblock)⟩
    · next hremv =>
      injection hblock with hblock
      exact hblock ▸ ⟨hinv, Nat.pos_of_ne_zero hremv⟩
  rcases hvalue with ⟨hfirst, rfl⟩ | ⟨hfirst, d₂, hmini, rfl⟩
  · exact firstReturned_inv hinv₁ hfirst
  · unfold nextMini at hmini
    split at hmini
    · next hused =>
      obtain ⟨hinv₂, hloaded⟩ := loadMini_keeps_inv hinv₁ hremv hfirst hused hmini
      have hfirst₂ : d₂.first = false := by
        obtain ⟨_, _, _, rfl⟩ := loadMini_eq_ok hmini
        exact hfirst
      exact deltaAdvance_keeps_inv hinv₂ hfirst₂ hloaded
    · next hleft =>
      injection hmini with hmini
      exact hmini ▸ deltaAdvance_keeps_inv hinv₁ hfirst (Nat.lt_of_le_of_ne hinv₁.mbpos hleft)

end Delta

end Decoders

end Sys2Proof.Machine
end

section
/-! PROOFS. The invariant of rule R38 for the whole block: every named update keeps it for a part that meets its own,
so every command does; and so do fault entry, a write of IB and a hardware reset. -/

namespace Sys2Proof.Machine

/-! ### Fault entry and hardware reset (rules R39, R346, R381) -/

theorem enterFault_inv {s : State} (h : s.Inv) (code : FaultCode) (c : Command) : (enterFault code c s).Inv :=
  { h with
    noFault := fun hrun => by cases hrun
    faulted := fun _ => ⟨code, rfl⟩ }

theorem resetValues_resetWith (p : Config.Params) : ResetValues (State.resetWith p) := by
  constructor <;> repeat' constructor

theorem HybridDec.inv_reset (limit : Word) : HybridDec.Inv limit {} where
  cursor h := by cases h
  width := Nat.zero_le _
  rem := Nat.two_pow_pos 31
  val := Nat.two_pow_pos 0
  opos := Nat.le_refl 8
  loaded h := absurd h (Nat.lt_irrefl 8)

theorem DeltaDec.inv_reset (w : Nat) (limit : Word) : DeltaDec.Inv limit ({} : DeltaDec w) where
  cursor h := by cases h
  remv := Nat.zero_le _
  firstOwed h := by cases h
  mbpos := Nat.le_refl 0
  mbn := Nat.le_refl 0
  msz := ⟨Nat.zero_le _, rfl⟩
  widths := ⟨Nat.zero_le _, fun _ h => by cases h⟩
  mbidx := Nat.le_refl 0
  covered := Nat.zero_le _

/-- Nothing is pending, attached or buffered after reset. -/
theorem resetWith_inv {p : Config.Params} (hp : p.Admissible) : (State.resetWith p).Inv where
  params := hp
  noFault _ := ⟨rfl, rfl, rfl⟩
  faulted h := by cases h
  ob := Nat.zero_le _
  ibForm := resetWith_ib_wf p
  ibBound _ h := by cases h
  mainCursor := ⟨Nat.le_refl 0, Nat.le_refl 0⟩
  attached := Nat.zero_le _
  e0 := BoolEnc.inv_of_empty_octet (Nat.zero_le _)
  e1 := engineClear_inv (e := {}) (Nat.zero_le _) (Nat.zero_le _)
  e2 := selfReset_inv {}
  e3 := selfReset_inv {}
  e4 := DeltaEnc.inv_empty
  e5 := DeltaEnc.inv_empty
  d0 := ⟨fun h => (by cases h), Nat.zero_le 8⟩
  d1 := HybridDec.inv_reset 0
  d3 := HybridDec.inv_reset 0
  d4 := DeltaDec.inv_reset 32 0
  d5 := DeltaDec.inv_reset 64 0

theorem hardwareReset_inv {s : State} (hp : s.params.Admissible) : (hardwareReset s).Inv :=
  { resetWith_inv hp with }

/-! ### The named updates -/

namespace State.Inv
variable {s : State}

theorem setPort (h : s.Inv) (x : List HostAction) : (s.setPort x).Inv := { h with }

theorem setR (h : s.Inv) (x : DWord) : (s.setR x).Inv := { h with }

theorem setV (h : s.Inv) (x : Vector DWord 128) : (s.setV x).Inv := { h with }

theorem setOB (h : s.Inv) {x : Bytes} (hx : x.length ≤ s.params.obcap) : (s.setOB x).Inv := { h with ob := hx }

theorem appendOB (h : s.Inv) {b : Bytes} (hb : s.ob.length + b.length ≤ s.params.obcap) : (s.setOB (s.ob ++ b)).Inv :=
  h.setOB (by rwa [List.length_append])

theorem setRC (h : s.Inv) {x : Cursor} (hx : x.Within s.rcend) : (s.setRC x).Inv := { h with mainCursor := hx }

theorem setE0 (h : s.Inv) {x : BoolEnc} (hx : x.Inv s.params) : (s.setE0 x).Inv := { h with e0 := hx }

theorem setE1 (h : s.Inv) {x : HybridEnc} (hx : x.Inv s.params) : (s.setE1 x).Inv := { h with e1 := hx }

theorem setE2 (h : s.Inv) {x : SelfEnc} (hx : x.Inv s.params) : (s.setE2 x).Inv := { h with e2 := hx }

theorem setE3 (h : s.Inv) {x : SelfEnc} (hx : x.Inv s.params) : (s.setE3 x).Inv := { h with e3 := hx }

theorem setE4 (h : s.Inv) {x : DeltaEnc 32} (hx : x.Inv s.params) : (s.setE4 x).Inv := { h with e4 := hx }

theorem setE5 (h : s.Inv) {x : DeltaEnc 64} (hx : x.Inv s.params) : (s.setE5 x).Inv := { h with e5 := hx }

theorem setD0 (h : s.Inv) {x : BoolDec} (hx : x.Inv s.rcend) : (s.setD0 x).Inv := { h with d0 := hx }

theorem setD1 (h : s.Inv) {x : HybridDec} (hx : x.Inv s.rcend) : (s.setD1 x).Inv := { h with d1 := hx }

theorem setD3 (h : s.Inv) {x : HybridDec} (hx : x.Inv s.rcend) : (s.setD3 x).Inv := { h with d3 := hx }

theorem setD4 (h : s.Inv) {x : DeltaDec 32} (hx : x.Inv s.rcend) : (s.setD4 x).Inv := { h with d4 := hx }

theorem setD5 (h : s.Inv) {x : DeltaDec 64} (hx : x.Inv s.rcend) : (s.setD5 x).Inv := { h with d5 := hx }

/-- A write of IB within its bounds (rules R26, R40). -/
theorem writeIB (h : s.Inv) {offset : Nat} {bytes : Bytes}
    (hfits : bytes = [] ∨ offset + bytes.length ≤ s.params.ibcap) : (s.setIB (s.ib.writeBytes offset bytes)).Inv :=
  { h with
    ibForm := Memory.writeBytes_wf bytes h.ibForm offset
    ibBound := by
      rcases hfits with rfl | hfits
      · exact h.ibBound
      · exact Memory.writeBytes_bound s.params.ibcap bytes offset hfits h.ibBound }

/-- A new stream: the decoders, whose cursors stand in the old one, are dropped (rule R134). -/
theorem attach (h : s.Inv) {n : Word} (hn : n.toNat ≤ s.params.ibcap) :
    ((s.setRCEnd n).setRC ⟨0, n⟩).detachDecoders.Inv :=
  { h with
    mainCursor := ⟨Nat.zero_le _, Nat.le_refl _⟩
    attached := hn
    d0 := { h.d0 with cursor := fun hact => by cases hact }
    d1 := { h.d1 with cursor := fun hact => by cases hact }
    d3 := { h.d3 with cursor := fun hact => by cases hact }
    d4 := { h.d4 with cursor := fun hact => by cases hact }
    d5 := { h.d5 with cursor := fun hact => by cases hact } }

theorem prcap_lt (h : s.Inv) : s.params.prcap < 2 ^ 31 := by
  obtain ⟨-, -, -, -, -, -, -, hcap, -, -⟩ := h.params
  exact hcap

end State.Inv

/-! ### The commands -/

/-- A command that completes keeps the invariant: each sets parts of the state that meet their own (rule R38). -/
theorem effect_keeps_inv {i : Instr} {s t : State} (hinv : s.Inv) (hwf : i.wf = true) (h : Effect i s t) : t.Inv := by
  cases i with
  | nop => exact h ▸ hinv
  | obclr => exact h ▸ hinv.setOB (Nat.zero_le _)
  | obpoke =>
    obtain ⟨-, rfl⟩ := h
    exact hinv.setOB (by rw [List.length_set]; exact hinv.ob)
  | rcatt =>
    obtain ⟨hn, rfl⟩ := h
    exact hinv.attach hn
  | rcslice arg =>
    obtain ⟨hin, rfl⟩ := h
    obtain ⟨hpos, hlim⟩ := hinv.mainCursor
    have hsum := toNat_ofNat_of_le hin
    exact hinv.setRC ⟨by rw [hsum]; exact Nat.le_add_right _ _, by rw [hsum]; exact hin.trans hlim⟩
  | rcunsl =>
    obtain ⟨hpos, hlim⟩ := hinv.mainCursor
    exact h ▸ hinv.setRC ⟨hpos.trans hlim, Nat.le_refl _⟩
  | vset => exact h ▸ hinv.setV _
  | bitw32 | bitw64 | zze32 | zze64 | zzd32 | zzd64 | size0 | size1 | size2 | size3 | size4 | size5
  | est0 | est1 | est2 | est3 | est4 | est5 =>
    obtain ⟨r, rfl⟩ := h
    exact hinv.setR r
  | wfix32 | wfix64 | wvar32 | wvar64 | wzz32 | wzz64 | wpack32 | wpack64 | wpbool =>
    obtain ⟨b, hfits, rfl⟩ := h
    exact hinv.appendOB hfits
  | rfix32 | rfix64 | rvar32 | rvar64 | rzz32 | rzz64 | rpbool =>
    obtain ⟨c, r, hmoved, rfl⟩ := h
    exact (hinv.setRC (hmoved.within hinv.mainCursor)).setR r
  | rpack32 | rpack64 =>
    obtain ⟨c, xs, hmoved, -, rfl⟩ := h
    exact (hinv.setRC (hmoved.within hinv.mainCursor)).setV _
  | enc0 =>
    obtain ⟨e, hfin, he, rfl⟩ := h
    exact hinv.setE0 (boolEncode_keeps_inv hinv.e0 hfin he)
  | enc1 =>
    obtain ⟨e, hfin, he, rfl⟩ := h
    exact hinv.setE1 (encode1_keeps_inv hinv.prcap_lt hinv.e1 hfin he)
  | enc2 =>
    obtain ⟨u, -, hu, rfl⟩ := h
    exact hinv.setE2 (selfEncode_keeps_inv hinv.e2 hu)
  | enc3 =>
    obtain ⟨u, -, hu, rfl⟩ := h
    exact hinv.setE3 (selfEncode_keeps_inv hinv.e3 hu)
  | enc4 =>
    obtain ⟨e, hfin, he, rfl⟩ := h
    exact hinv.setE4 (deltaBuffer_keeps_inv hinv.e4 hfin he)
  | enc5 =>
    obtain ⟨e₁, e, hfin, he₁, he, rfl⟩ := h
    exact hinv.setE5
      (lookahead_keeps_inv (deltaBuffer_keeps_inv hinv.e5 hfin he₁) ((deltaBuffer_fin he₁).trans hfin) he)
  | fin0 =>
    obtain ⟨e, he, rfl⟩ := h
    exact hinv.setE0 (boolFinish_keeps_inv hinv.e0 he)
  | fin1 =>
    obtain ⟨e, he, rfl⟩ := h
    exact hinv.setE1 (hybridFinish_keeps_inv hinv.e1 he)
  | fin2 =>
    obtain ⟨u, hu, rfl⟩ := h
    exact hinv.setE2 (selfUnitFinish_keeps_inv hinv.prcap_lt hinv.e2 hu)
  | fin3 =>
    obtain ⟨u, hu, rfl⟩ := h
    exact hinv.setE3 (selfUnitFinish_keeps_inv hinv.prcap_lt hinv.e3 hu)
  | fin4 =>
    obtain ⟨e, he, rfl⟩ := h
    exact hinv.setE4 (deltaFinish_keeps_inv hinv.e4 he)
  | fin5 =>
    obtain ⟨e, he, rfl⟩ := h
    exact hinv.setE5 (deltaFinish_keeps_inv hinv.e5 he)
  | rst0 => exact h ▸ hinv.setE0 (BoolEnc.inv_of_empty_octet (Nat.zero_le _))
  | rst1 => exact h ▸ hinv.setE1 (engineClear_inv (Nat.zero_le _) (of_decide_eq_true hwf))
  | rst2 => exact h ▸ hinv.setE2 (selfReset_inv s.e2)
  | rst3 => exact h ▸ hinv.setE3 (selfReset_inv s.e3)
  | rst4 => exact h ▸ hinv.setE4 DeltaEnc.inv_empty
  | rst5 => exact h ▸ hinv.setE5 DeltaEnc.inv_empty
  | wto0 =>
    obtain ⟨e, he, hfits, rfl⟩ := h
    exact (hinv.setE0 (boolFinish_keeps_inv hinv.e0 he)).appendOB hfits
  | wto1 =>
    obtain ⟨e, he, hfits, rfl⟩ := h
    exact (hinv.setE1 (hybridFinish_keeps_inv hinv.e1 he)).appendOB hfits
  | wto2 =>
    obtain ⟨u, hu, hfits, rfl⟩ := h
    exact (hinv.setE2 (selfUnitFinish_keeps_inv hinv.prcap_lt hinv.e2 hu)).appendOB hfits
  | wto3 =>
    obtain ⟨u, hu, hfits, rfl⟩ := h
    exact (hinv.setE3 (selfUnitFinish_keeps_inv hinv.prcap_lt hinv.e3 hu)).appendOB hfits
  | wto4 =>
    obtain ⟨e, he, hfits, rfl⟩ := h
    exact (hinv.setE4 (deltaFinish_keeps_inv hinv.e4 he)).appendOB hfits
  | wto5 =>
    obtain ⟨e, he, hfits, rfl⟩ := h
    exact (hinv.setE5 (deltaFinish_keeps_inv hinv.e5 he)).appendOB hfits
  | dinit0 => exact h ▸ hinv.setD0 ⟨fun _ => hinv.mainCursor, Nat.zero_le 8⟩
  | dinit1 => exact h ▸ hinv.setD1 (hybridInit_inv s.d1 hinv.mainCursor (of_decide_eq_true hwf))
  | dinit3 =>
    obtain ⟨d, hd, rfl⟩ := h
    exact hinv.setD3 (hybridInitPrefixed_inv hinv.mainCursor hd)
  | dinit4 => exact h ▸ hinv.setD4 (deltaInit_inv hinv.d4 hinv.mainCursor)
  | dinit5 => exact h ▸ hinv.setD5 (deltaInit_inv hinv.d5 hinv.mainCursor)
  | dec0 =>
    obtain ⟨x, d, -, hd, rfl⟩ := h
    exact (hinv.setD0 (boolDecode_keeps_inv hinv.d0 hd)).setR _
  | dec1 =>
    obtain ⟨x, d, -, hd, rfl⟩ := h
    exact (hinv.setD1 (rleLoop_keeps_inv hinv.d1 hd)).setR _
  | dec3 =>
    obtain ⟨x, d, -, hd, rfl⟩ := h
    exact (hinv.setD3 (rleLoop_keeps_inv hinv.d3 hd)).setR _
  | dec4 =>
    obtain ⟨x, d, -, hd, rfl⟩ := h
    exact (hinv.setD4 (deltaNext_keeps_inv (by decide) hinv.d4 hd)).setR _
  | dec5 =>
    obtain ⟨x, d, -, hd, rfl⟩ := h
    exact (hinv.setD5 (deltaNext_keeps_inv (by decide) hinv.d5 hd)).setR _

theorem exec_keeps_inv {i : Instr} {s t : State} (hinv : s.Inv) (h : exec i s = .next t) : t.Inv := by
  rcases exec_ends h with ⟨-, rfl⟩ | ⟨-, code, rfl⟩ | ⟨-, hwf, heff⟩
  · exact hinv
  · exact enterFault_inv hinv code _
  · exact effect_keeps_inv hinv hwf heff

theorem illegalWord_next {c : Command} {s t : State} (h : illegalWord c s = .next t) :
    t = s ∨ t = enterFault .illegalCommand c s := by
  unfold illegalWord at h
  split at h <;> injection h with h
  · exact .inl h.symm
  · exact .inr h.symm

theorem presentCommand_keeps_inv {c : Command} {s t : State} (hinv : s.Inv) (h : presentCommand c s = .next t) :
    t.Inv := by
  cases hdec : decode c with
  | ok i => exact exec_keeps_inv hinv ((presentCommand_of_decode hdec s).symm.trans h)
  | error e =>
    rw [presentCommand, hdec] at h
    rcases illegalWord_next h with rfl | rfl
    · exact hinv
    · exact enterFault_inv hinv _ c

/-! ### What a step that writes IB or resets does (rules R40, R380) -/

theorem step_of_writeIB {s : State} {offset : Nat} {bytes : Bytes} {rest : List HostAction}
    (h : s.port = .writeIB offset bytes :: rest) : step s = hostWrite (s.setPort rest) offset bytes := by
  rw [step, h]
  rfl

theorem step_of_reset {s : State} {rest : List HostAction} (h : s.port = .reset :: rest) :
    step s = .next (hardwareReset (s.setPort rest)) := by
  rw [step, h]
  rfl

theorem hostWrite_of_within {s : State} {offset : Nat} {bytes : Bytes}
    (h : offset + bytes.length ≤ s.params.ibcap) :
    hostWrite s offset bytes = .next (s.setIB (s.ib.writeBytes offset bytes)) :=
  if_neg fun hover => absurd hover.2 (Nat.not_lt.2 h)

theorem hostWrite_of_beyond {s : State} {offset : Nat} {bytes : Bytes} (hne : bytes ≠ [])
    (h : s.params.ibcap < offset + bytes.length) :
    hostWrite s offset bytes = .fault (.ibAddressAbsent (max offset s.params.ibcap)) :=
  if_pos ⟨fun h0 => hne (List.eq_nil_of_length_eq_zero h0), h⟩

theorem hostWrite_keeps_inv {s t : State} {offset : Nat} {bytes : Bytes} (hinv : s.Inv)
    (h : hostWrite s offset bytes = .next t) : t.Inv := by
  rw [hostWrite_next h]
  refine hinv.writeIB (or_iff_not_imp_left.2 fun hne => ?_)
  by_contra hover
  rw [hostWrite_of_beyond hne (Nat.lt_of_not_le hover)] at h
  cases h

/-! ### The statements -/

/-- Settles O9: an idle step changes nothing, and each action of the host keeps the invariant. -/
theorem everyStepKeepsInvariant : Obligations.EveryStepKeepsInvariant := by
  intro s t hinv h
  cases hport : s.port with
  | nil =>
    rw [step_of_idle hport] at h
    injection h with h
    exact h ▸ hinv
  | cons a rest =>
    have hrest := hinv.setPort rest
    cases a with
    | command c => exact presentCommand_keeps_inv hrest ((step_of_command hport).symm.trans h)
    | writeIB offset bytes => exact hostWrite_keeps_inv hrest ((step_of_writeIB hport).symm.trans h)
    | reset =>
      rw [step_of_reset hport] at h
      injection h with h
      exact h ▸ hardwareReset_inv hrest.params

/-- Settles O8: the default capacities are admissible, and the state after reset does not depend on which they are. -/
theorem resetMeetsInvariant : Obligations.ResetMeetsInvariant :=
  ⟨resetWith_inv (by decide), resetValues_resetWith _, fun _ => resetWith_inv⟩

/-- Settles O7: the reset state keeps of the old one the capacities and the actions still to come. -/
theorem hardwareResetGivesResetValues : Obligations.HardwareResetGivesResetValues :=
  fun s _ hport => ⟨_, step_of_reset hport, { resetValues_resetWith s.params with }, rfl, rfl⟩

/-- Settles O6: within IB the bytes read back at their addresses and the rest as before; beyond it the model stops. -/
theorem hostWriteChangesOnlyIB : Obligations.HostWriteChangesOnlyIB := by
  intro s offset bytes rest hport hib
  refine ⟨fun hin => ⟨s.ib.writeBytes offset bytes, ?_, Memory.writeBytes_wf bytes hib offset,
    Memory.read_writeBytes bytes hib offset⟩, fun hne hover => ?_⟩
  · exact (step_of_writeIB hport).trans (hostWrite_of_within hin)
  · exact (step_of_writeIB hport).trans (hostWrite_of_beyond hne hover)

end Sys2Proof.Machine
end

section
/-! PROOFS. Who writes which state (rules R23, R26, R60, R180, R201): IB, the units, OB and the main cursor, and the
flags of the units. -/

namespace Sys2Proof.Machine

/-! ### IB, the capacities and the queue (rules R26, R60) -/

theorem exec_keeps_ib {i : Instr} {s t : State} (h : exec i s = .next t) : t.ib = s.ib := by
  rcases exec_ends h with ⟨-, rfl⟩ | ⟨-, code, rfl⟩ | ⟨-, -, heff⟩
  · rfl
  · rfl
  · obtain ⟨-, -, -, -, hib, -, -⟩ := effect_keeps heff
    exact hib

/-- Settles O14: no effect touches IB, the capacities or the queue, and neither does a fault entry. -/
theorem commandsNeverWriteIB : Obligations.CommandsNeverWriteIB := by
  intro i s t h
  have hib := exec_keeps_ib h
  obtain ⟨hport, hparams⟩ := exec_keeps_port_params h
  exact ⟨fun k => by rw [hib], hib, hparams, hport⟩

/-! ### The units, OB and the main cursor (rules R60, R180, R201) -/

/-- Settles O17: the updates of each command's effect, group by group, are of parts its opcode is listed for. -/
theorem unitsChangeOnlyByTheirOwnCommands : Obligations.UnitsChangeOnlyByTheirOwnCommands := by
  intro i s t h
  rcases exec_ends h with ⟨-, rfl⟩ | ⟨-, code, rfl⟩ | ⟨-, -, heff⟩
  · simp
  · simp
  cases i with
  | nop | obclr | rcunsl | vset | rst0 | rst1 | rst2 | rst3 | rst4 | rst5 | dinit0 | dinit1 | dinit4 | dinit5 =>
    subst heff
    simp [opcNo, opcOf]
  | obpoke | rcatt | rcslice =>
    obtain ⟨-, rfl⟩ := heff
    simp [opcNo, opcOf]
  | bitw32 | bitw64 | zze32 | zze64 | zzd32 | zzd64 | size0 | size1 | size2 | size3 | size4 | size5
  | est0 | est1 | est2 | est3 | est4 | est5 =>
    obtain ⟨r, rfl⟩ := heff
    simp [opcNo, opcOf]
  | wfix32 | wfix64 | wvar32 | wvar64 | wzz32 | wzz64 | wpack32 | wpack64 | wpbool =>
    obtain ⟨b, -, rfl⟩ := heff
    simp [opcNo, opcOf]
  | rfix32 | rfix64 | rvar32 | rvar64 | rzz32 | rzz64 | rpbool =>
    obtain ⟨c, r, -, rfl⟩ := heff
    simp [opcNo, opcOf]
  | rpack32 | rpack64 =>
    obtain ⟨c, xs, -, -, rfl⟩ := heff
    simp [opcNo, opcOf]
  | enc0 | enc1 | enc2 | enc3 | enc4 =>
    obtain ⟨e, -, -, rfl⟩ := heff
    simp [opcNo, opcOf]
  | enc5 =>
    obtain ⟨e₁, e, -, -, -, rfl⟩ := heff
    simp [opcNo, opcOf]
  | fin0 | fin1 | fin2 | fin3 | fin4 | fin5 | dinit3 =>
    obtain ⟨e, -, rfl⟩ := heff
    simp [opcNo, opcOf]
  | wto0 | wto1 | wto2 | wto3 | wto4 | wto5 =>
    obtain ⟨e, -, -, rfl⟩ := heff
    simp [opcNo, opcOf]
  | dec0 | dec1 | dec3 | dec4 | dec5 =>
    obtain ⟨x, d, -, -, rfl⟩ := heff
    simp [opcNo, opcOf]

/-! ### The flags after an update of a unit (rule R23) -/

section Flags
variable (s : State)

theorem finFlag_setE0 (e : BoolEnc) : finFlag (s.setE0 e) = Function.update (finFlag s) 0 e.fin := by
  funext u
  rcases u with _ | _ | _ | _ | _ | _ | u <;> rfl

theorem finFlag_setE1 (e : HybridEnc) : finFlag (s.setE1 e) = Function.update (finFlag s) 1 e.fin := by
  funext u
  rcases u with _ | _ | _ | _ | _ | _ | u <;> rfl

theorem finFlag_setE2 (e : SelfEnc) : finFlag (s.setE2 e) = Function.update (finFlag s) 2 e.hyb.fin := by
  funext u
  rcases u with _ | _ | _ | _ | _ | _ | u <;> rfl

theorem finFlag_setE3 (e : SelfEnc) : finFlag (s.setE3 e) = Function.update (finFlag s) 3 e.hyb.fin := by
  funext u
  rcases u with _ | _ | _ | _ | _ | _ | u <;> rfl

theorem finFlag_setE4 (e : DeltaEnc 32) : finFlag (s.setE4 e) = Function.update (finFlag s) 4 e.fin := by
  funext u
  rcases u with _ | _ | _ | _ | _ | _ | u <;> rfl

theorem finFlag_setE5 (e : DeltaEnc 64) : finFlag (s.setE5 e) = Function.update (finFlag s) 5 e.fin := by
  funext u
  rcases u with _ | _ | _ | _ | _ | _ | u <;> rfl

theorem actFlag_setD0 (d : BoolDec) : actFlag (s.setD0 d) = Function.update (actFlag s) 0 d.act := by
  funext u
  rcases u with _ | _ | _ | _ | _ | _ | u <;> rfl

theorem actFlag_setD1 (d : HybridDec) : actFlag (s.setD1 d) = Function.update (actFlag s) 1 d.act := by
  funext u
  rcases u with _ | _ | _ | _ | _ | _ | u <;> rfl

theorem actFlag_setD3 (d : HybridDec) : actFlag (s.setD3 d) = Function.update (actFlag s) 3 d.act := by
  funext u
  rcases u with _ | _ | _ | _ | _ | _ | u <;> rfl

theorem actFlag_setD4 (d : DeltaDec 32) : actFlag (s.setD4 d) = Function.update (actFlag s) 4 d.act := by
  funext u
  rcases u with _ | _ | _ | _ | _ | _ | u <;> rfl

theorem actFlag_setD5 (d : DeltaDec 64) : actFlag (s.setD5 d) = Function.update (actFlag s) 5 d.act := by
  funext u
  rcases u with _ | _ | _ | _ | _ | _ | u <;> rfl

theorem actFlag_detachDecoders (u : Nat) : actFlag s.detachDecoders u = false := by
  rcases u with _ | _ | _ | _ | _ | _ | u <;> rfl

end Flags

/-! ### One step of the flags -/

/-- From `f` to `g` a flag is set only where `set` allows it and cleared only where `clear` does. -/
def FlagStep (set clear : Nat → Prop) (f g : Nat → Bool) : Prop :=
  ∀ u, (f u = false → g u = true → set u) ∧ (f u = true → g u = false → clear u)

section Step
variable {set clear : Nat → Prop} {f g : Nat → Bool} {k : Nat} {b : Bool}

theorem FlagStep.refl : FlagStep set clear f f := fun u =>
  ⟨fun h0 h1 => (by cases h0.symm.trans h1), fun h1 h0 => by cases h0.symm.trans h1⟩

theorem FlagStep.kept (hg : g = Function.update f k b) (hb : b = f k) : FlagStep set clear f g := by
  subst hb
  rw [hg, Function.update_eq_self]
  exact .refl

theorem FlagStep.update (hg : g = Function.update f k b) (hset : b = true → set k) (hclear : b = false → clear k) :
    FlagStep set clear f g := by
  intro u
  rw [hg]
  by_cases hu : u = k
  · subst hu
    rw [Function.update_self]
    exact ⟨fun _ => hset, fun _ => hclear⟩
  · rw [Function.update_of_ne hu]
    exact FlagStep.refl u

theorem FlagStep.sets (hg : g = Function.update f k b) (hb : b = true) (hset : set k) : FlagStep set clear f g :=
  .update hg (fun _ => hset) fun h0 => by cases h0.symm.trans hb

theorem FlagStep.clears (hg : g = Function.update f k b) (hb : b = false) (hclear : clear k) : FlagStep set clear f g :=
  .update hg (fun h1 => by cases hb.symm.trans h1) fun _ => hclear

end Step

/-! ### The flags of the boolean units and of a decoder constructed (rules R202, R203, R209, R264) -/

theorem boolEncode_fin {cap : Nat} {e e' : BoolEnc} {b : Bool} (h : boolEncode cap e b = .ok e') : e'.fin = e.fin := by
  unfold boolEncode at h
  simp only at h
  split at h
  · obtain ⟨st, -, h⟩ := bind_eq_ok.1 h
    injection h with h
    rw [← h]
  · injection h with h
    rw [← h]

theorem boolFinish_fin {cap : Nat} {e e' : BoolEnc} (h : boolFinish cap e = .ok e') : e'.fin = true := by
  unfold boolFinish at h
  split at h
  · next hfin =>
    injection h with h
    rw [← h, hfin]
  · split at h
    · obtain ⟨st, -, h⟩ := bind_eq_ok.1 h
      injection h with h
      rw [← h]
    · injection h with h
      rw [← h]

theorem boolDecode_act {m : Memory} {d d' : BoolDec} {b : Bool} (h : boolDecode m d = .ok (b, d')) :
    d'.act = d.act := by
  unfold boolDecode at h
  split at h
  · obtain ⟨⟨y, c⟩, -, h⟩ := bind_eq_ok.1 h
    injection h with h
    injection h with _ h
    rw [← h]
  · injection h with h
    injection h with _ h
    rw [← h]

theorem hybridInitPrefixed_act {m : Memory} {d d' : HybridDec} {c : Cursor} (h : hybridInitPrefixed m d c = .ok d') :
    d'.act = true := by
  obtain ⟨⟨y, c'⟩, -, h⟩ := bind_eq_ok.1 h
  simp only at h
  split at h
  · cases h
  · injection h with h
    rw [← h]
    rfl

/-! ### The flags after a command (rule R23) -/

/-- Where a command may set `FIN`, and where it may clear it. -/
abbrev FinStep (i : Instr) (s t : State) : Prop :=
  FlagStep (fun u => opcNo i = 0x50 + u ∨ opcNo i = 0x90 + u) (fun u => opcNo i = 0x60 + u) (finFlag s) (finFlag t)

/-- Where a command may set `ACT`, and when it may clear it. -/
abbrev ActStep (i : Instr) (s t : State) : Prop :=
  FlagStep (fun u => opcNo i = 0xA0 + u) (fun _ => opcNo i = 0x03) (actFlag s) (actFlag t)

/-- `ENC.u` keeps its unit's `FIN`, `FIN.u` and `WTO.u` set it, `RST.u` clears it; no other command touches a unit. -/
theorem effect_finStep {i : Instr} {s t : State} (h : Effect i s t) : FinStep i s t := by
  cases i with
  | nop | obclr | rcunsl | vset | dinit0 | dinit1 | dinit4 | dinit5 =>
    subst h
    exact .refl
  | obpoke | rcatt | rcslice =>
    obtain ⟨-, rfl⟩ := h
    exact .refl
  | bitw32 | bitw64 | zze32 | zze64 | zzd32 | zzd64 | size0 | size1 | size2 | size3 | size4 | size5
  | est0 | est1 | est2 | est3 | est4 | est5 =>
    obtain ⟨r, rfl⟩ := h
    exact .refl
  | wfix32 | wfix64 | wvar32 | wvar64 | wzz32 | wzz64 | wpack32 | wpack64 | wpbool | dinit3 =>
    obtain ⟨x, -, rfl⟩ := h
    exact .refl
  | rfix32 | rfix64 | rvar32 | rvar64 | rzz32 | rzz64 | rpbool =>
    obtain ⟨c, r, -, rfl⟩ := h
    exact .refl
  | rpack32 | rpack64 | dec0 | dec1 | dec3 | dec4 | dec5 =>
    obtain ⟨x, y, -, -, rfl⟩ := h
    exact .refl
  | enc0 =>
    obtain ⟨e, -, he, rfl⟩ := h
    exact .kept (finFlag_setE0 s e) (boolEncode_fin he)
  | enc1 =>
    obtain ⟨e, -, he, rfl⟩ := h
    exact .kept (finFlag_setE1 s e) (encode1_same he).1
  | enc2 =>
    obtain ⟨u, -, hu, rfl⟩ := h
    obtain ⟨-, rfl⟩ := selfEncode_eq_ok.1 hu
    exact .kept (finFlag_setE2 s _) rfl
  | enc3 =>
    obtain ⟨u, -, hu, rfl⟩ := h
    obtain ⟨-, rfl⟩ := selfEncode_eq_ok.1 hu
    exact .kept (finFlag_setE3 s _) rfl
  | enc4 =>
    obtain ⟨e, -, he, rfl⟩ := h
    exact .kept (finFlag_setE4 s e) (deltaBuffer_fin he)
  | enc5 =>
    obtain ⟨e₁, e, -, he₁, he, rfl⟩ := h
    exact .kept (finFlag_setE5 s e) ((lookahead_fin he).trans (deltaBuffer_fin he₁))
  | fin0 =>
    obtain ⟨e, he, rfl⟩ := h
    exact .sets (finFlag_setE0 s e) (boolFinish_fin he) (.inl rfl)
  | fin1 =>
    obtain ⟨e, he, rfl⟩ := h
    exact .sets (finFlag_setE1 s e) (hybridFinish_fin he) (.inl rfl)
  | fin2 =>
    obtain ⟨u, hu, rfl⟩ := h
    exact .sets (finFlag_setE2 s u) (selfUnitFinish_fin hu) (.inl rfl)
  | fin3 =>
    obtain ⟨u, hu, rfl⟩ := h
    exact .sets (finFlag_setE3 s u) (selfUnitFinish_fin hu) (.inl rfl)
  | fin4 =>
    obtain ⟨e, he, rfl⟩ := h
    exact .sets (finFlag_setE4 s e) (deltaFinish_fin he) (.inl rfl)
  | fin5 =>
    obtain ⟨e, he, rfl⟩ := h
    exact .sets (finFlag_setE5 s e) (deltaFinish_fin he) (.inl rfl)
  | wto0 =>
    obtain ⟨e, he, -, rfl⟩ := h
    exact .sets (finFlag_setE0 s e) (boolFinish_fin he) (.inr rfl)
  | wto1 =>
    obtain ⟨e, he, -, rfl⟩ := h
    exact .sets (finFlag_setE1 s e) (hybridFinish_fin he) (.inr rfl)
  | wto2 =>
    obtain ⟨u, hu, -, rfl⟩ := h
    exact .sets (finFlag_setE2 s u) (selfUnitFinish_fin hu) (.inr rfl)
  | wto3 =>
    obtain ⟨u, hu, -, rfl⟩ := h
    exact .sets (finFlag_setE3 s u) (selfUnitFinish_fin hu) (.inr rfl)
  | wto4 =>
    obtain ⟨e, he, -, rfl⟩ := h
    exact .sets (finFlag_setE4 s e) (deltaFinish_fin he) (.inr rfl)
  | wto5 =>
    obtain ⟨e, he, -, rfl⟩ := h
    exact .sets (finFlag_setE5 s e) (deltaFinish_fin he) (.inr rfl)
  | rst0 => exact h ▸ .clears (finFlag_setE0 s _) rfl rfl
  | rst1 => exact h ▸ .clears (finFlag_setE1 s _) rfl rfl
  | rst2 => exact h ▸ .clears (finFlag_setE2 s _) rfl rfl
  | rst3 => exact h ▸ .clears (finFlag_setE3 s _) rfl rfl
  | rst4 => exact h ▸ .clears (finFlag_setE4 s _) rfl rfl
  | rst5 => exact h ▸ .clears (finFlag_setE5 s _) rfl rfl

/-- `DINIT.u` sets its unit's `ACT`, `DEC.u` keeps it, `RCATT` clears every one; no other command touches a decoder. -/
theorem effect_actStep {i : Instr} {s t : State} (h : Effect i s t) : ActStep i s t := by
  cases i with
  | nop | obclr | rcunsl | vset | rst0 | rst1 | rst2 | rst3 | rst4 | rst5 =>
    subst h
    exact .refl
  | obpoke | rcslice =>
    obtain ⟨-, rfl⟩ := h
    exact .refl
  | bitw32 | bitw64 | zze32 | zze64 | zzd32 | zzd64 | size0 | size1 | size2 | size3 | size4 | size5
  | est0 | est1 | est2 | est3 | est4 | est5 =>
    obtain ⟨r, rfl⟩ := h
    exact .refl
  | wfix32 | wfix64 | wvar32 | wvar64 | wzz32 | wzz64 | wpack32 | wpack64 | wpbool
  | fin0 | fin1 | fin2 | fin3 | fin4 | fin5 =>
    obtain ⟨x, -, rfl⟩ := h
    exact .refl
  | rfix32 | rfix64 | rvar32 | rvar64 | rzz32 | rzz64 | rpbool =>
    obtain ⟨c, r, -, rfl⟩ := h
    exact .refl
  | rpack32 | rpack64 =>
    obtain ⟨c, xs, -, -, rfl⟩ := h
    exact .refl
  | enc0 | enc1 | enc2 | enc3 | enc4 | wto0 | wto1 | wto2 | wto3 | wto4 | wto5 =>
    obtain ⟨e, -, -, rfl⟩ := h
    exact .refl
  | enc5 =>
    obtain ⟨e₁, e, -, -, -, rfl⟩ := h
    exact .refl
  | rcatt =>
    obtain ⟨-, rfl⟩ := h
    intro u
    rw [actFlag_detachDecoders]
    exact ⟨fun _ h1 => (by cases h1), fun _ _ => rfl⟩
  | dinit0 => exact h ▸ .sets (actFlag_setD0 s _) rfl rfl
  | dinit1 => exact h ▸ .sets (actFlag_setD1 s _) rfl rfl
  | dinit3 =>
    obtain ⟨d, hd, rfl⟩ := h
    exact .sets (actFlag_setD3 s d) (hybridInitPrefixed_act hd) rfl
  | dinit4 => exact h ▸ .sets (actFlag_setD4 s _) rfl rfl
  | dinit5 => exact h ▸ .sets (actFlag_setD5 s _) rfl rfl
  | dec0 =>
    obtain ⟨x, d, -, hd, rfl⟩ := h
    exact .kept (actFlag_setD0 s d) (boolDecode_act hd)
  | dec1 =>
    obtain ⟨x, d, -, hd, rfl⟩ := h
    exact .kept (actFlag_setD1 s d) (rleLoop_same hd).1
  | dec3 =>
    obtain ⟨x, d, -, hd, rfl⟩ := h
    exact .kept (actFlag_setD3 s d) (rleLoop_same hd).1
  | dec4 =>
    obtain ⟨x, d, -, hd, rfl⟩ := h
    exact .kept (actFlag_setD4 s d) (deltaNext_same hd)
  | dec5 =>
    obtain ⟨x, d, -, hd, rfl⟩ := h
    exact .kept (actFlag_setD5 s d) (deltaNext_same hd)

/-- Settles O16: a refused or faulting command keeps the flags, and a completed one steps them as its effect does. -/
theorem flagsChangeOnlyAsListed : Obligations.FlagsChangeOnlyAsListed := by
  intro i s t u h
  obtain ⟨hfin, hact⟩ : FinStep i s t ∧ ActStep i s t := by
    rcases exec_ends h with ⟨-, rfl⟩ | ⟨-, code, rfl⟩ | ⟨-, -, heff⟩
    · exact ⟨.refl, .refl⟩
    · exact ⟨.refl, .refl⟩
    · exact ⟨effect_finStep heff, effect_actStep heff⟩
  obtain ⟨hfinSet, hfinClear⟩ := hfin u
  obtain ⟨hactSet, hactClear⟩ := hact u
  exact ⟨hfinSet, hfinClear, hactSet, hactClear⟩

end Sys2Proof.Machine
end

section
/-! PROOFS. The register read port (rule R24): the bits of `STATUS`, the registers under their numbers, and the gaps. -/

namespace Sys2Proof.Machine

/-! ### `STATUS` (rule R24) -/

theorem flagBit_getLsbD {b : Bool} {n : Nat} (hn : n < 32) (k : Nat) :
    (flagBit b n).getLsbD k = (decide (k = n) && b) := by
  rw [flagBit, BitVec.getLsbD_shiftLeft, BitVec.getLsbD_setWidth, BitVec.getLsbD_ofBool]
  rcases Nat.lt_trichotomy k n with hlt | rfl | hgt
  · simp [hlt, Nat.ne_of_lt hlt]
  · simp [hn]
  · simp [Nat.ne_of_gt hgt, show ¬k - n = 0 by omega]

theorem zext64_getLsbD (x : Word) (k : Nat) : (zext64 x).getLsbD k = x.getLsbD k := by
  rw [zext64, BitVec.getLsbD_setWidth]
  by_cases hk : k < 64
  · simp [hk]
  · simp [hk, BitVec.getLsbD_of_ge x k (by omega)]

/-- Bit `k` of `STATUS` is the flag that stands there, and 0 where none does. -/
theorem statusWord_getLsbD (s : State) (k : Nat) :
    (statusWord s).getLsbD k =
      if k = 0 then s.fault else if 8 ≤ k ∧ k ≤ 13 then finFlag s (k - 8)
      else if 16 ≤ k ∧ k ≤ 21 then actFlag s (k - 16) else false := by
  have hnone : actFlag s 2 = false := rfl
  simp only [statusWord, BitVec.getLsbD_or, flagBit_getLsbD, Nat.reduceLT]
  by_cases hk : k < 22
  · interval_cases k <;> simp [hnone]
  · have hne {n : Nat} (hn : n < 22) : k ≠ n := by omega
    simp [hne, show ¬k ≤ 13 by omega, show ¬k ≤ 21 by omega]

/-! ### The other registers -/

theorem zext64_toNat {n : Nat} (hn : n ≤ 64) (x : BitVec n) : (zext64 x).toNat = x.toNat :=
  BitVec.toNat_setWidth_of_le hn

theorem lenWord_toNat (n : Nat) : (lenWord n).toNat = n % 2 ^ 32 := by
  rw [lenWord, zext64_toNat (by decide), BitVec.toNat_ofNat]

/-- From number 32 on the port reads the lanes of `V`, and 0 behind the last. -/
theorem readRegister_lane (s : State) (k : Nat) : readRegister s (32 + k) = s.v.toList.getD k 0 := by
  rw [Nat.add_comm]
  rfl

/-! ### After reset (rule R39) -/

theorem finFlag_of_resetValues {s : State} (h : ResetValues s) (u : Nat) : finFlag s u = false := by
  obtain ⟨-, -, ⟨-, h0, -⟩, ⟨-, h1, -⟩, ⟨-, h2, -⟩, ⟨-, h3, -⟩, ⟨-, h4, -⟩, ⟨-, h5, -⟩, -⟩ := h
  rcases u with _ | _ | _ | _ | _ | _ | u
  exacts [h0, h1, h2, h3, h4, h5, rfl]

theorem actFlag_of_resetValues {s : State} (h : ResetValues s) (u : Nat) : actFlag s u = false := by
  obtain ⟨-, -, -, -, -, -, -, -, ⟨h0, -⟩, ⟨h1, -⟩, ⟨h3, -⟩, ⟨h4, -⟩, ⟨h5, -⟩⟩ := h
  rcases u with _ | _ | _ | _ | _ | _ | u
  exacts [h0, h1, rfl, h3, h4, h5, rfl]

theorem statusWord_of_resetValues {s : State} (h : ResetValues s) : statusWord s = 0 := by
  obtain ⟨hfault, -⟩ := h.faults
  refine BitVec.eq_of_getLsbD_eq fun k _ => ?_
  rw [statusWord_getLsbD, hfault, finFlag_of_resetValues h, actFlag_of_resetValues h]
  simp

/-- Every register of the table but `R` and the lanes of `V` reads 0 after reset. -/
theorem readRegister_of_resetValues {s : State} (h : ResetValues s) {n : Nat} (hn : n < 32) (h4 : n ≠ 4) :
    readRegister s n = 0 := by
  have hstatus := statusWord_of_resetValues h
  obtain ⟨⟨-, hfcode, hfcmd, hfarg⟩, ⟨hob, hpos, hlim, hend⟩, ⟨he0, -⟩, ⟨he1, -⟩, ⟨he2, -⟩, ⟨he3, -⟩, ⟨he4, -⟩,
    ⟨he5, -⟩, ⟨-, hd0, -⟩, ⟨-, hd1, -⟩, ⟨-, hd3, -⟩, ⟨-, hd4, -⟩, ⟨-, hd5, -⟩⟩ := h
  interval_cases n <;>
    simp [readRegister, lenWord, zext64, hstatus, hfcode, hfcmd, hfarg, hob, hpos, hlim, hend, he0, he1, he2, he3, he4,
      he5, hd0, hd1, hd3, hd4, hd5] at h4 ⊢

/-! ### The statement -/

/-- Settles O19: `STATUS` bit by bit, the other registers by their extension, and the numbers of the gaps. -/
theorem registerReadPort : Obligations.RegisterReadPort := by
  intro s
  have hextended (x : Word) : (zext64 x).toNat = x.toNat := zext64_toNat (by decide) x
  refine ⟨fun k => (zext64_getLsbD _ k).trans (statusWord_getLsbD s k), zext64_toNat (by decide) _, hextended _,
    rfl, rfl, lenWord_toNat _, hextended _, hextended _, hextended _, lenWord_toNat _, lenWord_toNat _, lenWord_toNat _,
    lenWord_toNat _, lenWord_toNat _, lenWord_toNat _, hextended _, hextended _, hextended _, hextended _, hextended _,
    fun k hk => ?lane, fun n hn => ?gap, fun hreset n => readRegister_of_resetValues hreset⟩
  case lane =>
    rw [readRegister_lane, List.getD_eq_getElem _ _ (by simpa using hk)]
    rfl
  case gap =>
    rcases hn with hn | hn
    · simp only [List.mem_cons, List.not_mem_nil, or_false] at hn
      rcases hn with rfl | rfl | rfl | rfl | rfl | rfl | rfl | rfl | rfl | rfl | rfl | rfl <;> rfl
    · obtain ⟨k, rfl⟩ := Nat.exists_eq_add_of_le (show 32 ≤ n by omega)
      rw [readRegister_lane, List.getD_eq_default _ _ (by simp; omega)]

end Sys2Proof.Machine
end

section
/-! PROOFS. Who writes and who reads the result registers `R` and `V` (rule R21). A command is followed on two states
that differ in `R` and `V` alone: its bodies on the two run the same operations, so they end alike, and what each leaves
in `R` and `V` is one function of what was there. -/

namespace Sys2Proof.Machine

/-! ### The two registers of a state -/

/-- The state with other contents of `R` and `V`. -/
def State.withRV (s : State) (x : DWord) (y : Vector DWord 128) : State := (s.setR x).setV y

/-- The commands that list `R` in their pseudocode. -/
abbrev WritesR (i : Instr) : Prop :=
  opcNo i / 16 = 1 ∨ (opcNo i / 16 = 3 ∧ opcNo i ≠ 0x36 ∧ opcNo i ≠ 0x37) ∨ opcNo i / 16 = 7 ∨ opcNo i / 16 = 8 ∨
    opcNo i / 16 = 11

/-- The commands that list `V`, with the lanes they write. -/
abbrev WritesLane (i : Instr) (k : Nat) : Prop :=
  (opcNo i = 0x06 ∧ k = (imm8Of i).toNat) ∨ ((opcNo i = 0x36 ∨ opcNo i = 0x37) ∧ k < (imm8Of i).toNat)

/-- What a command makes of `R`: it keeps it, or writes a result that does not depend on it. -/
def ResultOfR (i : Instr) (f : DWord → DWord) : Prop := f = id ∨ (WritesR i ∧ ∃ r, f = fun _ => r)

/-- What a command makes of `V`: it changes none but its own lanes. -/
def ResultOfV (i : Instr) (g : Vector DWord 128 → Vector DWord 128) : Prop :=
  ∀ (v : Vector DWord 128) (k : Nat) (_ : k < 128), (g v)[k] ≠ v[k] → WritesLane i k

/-- From `s` and `s'` a command goes to `t` and `u`, which differ in `R` and `V` alone, and in them as the command makes
of what `s` and `s'` held there. -/
def Carried (i : Instr) (s s' t u : State) : Prop :=
  ∃ (w : State) (f : DWord → DWord) (g : Vector DWord 128 → Vector DWord 128), ResultOfR i f ∧ ResultOfV i g ∧
    t = w.withRV (f s.r) (g s.v) ∧ u = w.withRV (f s'.r) (g s'.v)

section Rules
variable {i : Instr} {s s' t u : State}

theorem resultOfV_id (i : Instr) : ResultOfV i id := fun _ _ _ h => absurd rfl h

theorem Carried.keeps (hr : t.r = s.r) (hv : t.v = s.v) (hu : u = t.withRV s'.r s'.v) : Carried i s s' t u :=
  ⟨t, id, id, .inl rfl, resultOfV_id i, by rw [id, id, ← hr, ← hv]; rfl, hu⟩

theorem Carried.setsR (hw : WritesR i) (hv : t.v = s.v) (hu : u = t.withRV t.r s'.v) : Carried i s s' t u :=
  ⟨t, fun _ => t.r, id, .inr ⟨hw, t.r, rfl⟩, resultOfV_id i, by rw [id, ← hv]; rfl, hu⟩

theorem Carried.setsV {g : Vector DWord 128 → Vector DWord 128} (hg : ResultOfV i g) (hr : t.r = s.r)
    (hv : t.v = g s.v) (hu : u = t.withRV s'.r (g s'.v)) : Carried i s s' t u :=
  ⟨t, id, g, .inl rfl, hg, by rw [id, ← hr, ← hv]; rfl, hu⟩

end Rules

/-! ### Operations that end alike -/

/-- Two operations raise the same fault, or both end well, with results related by `Q`. -/
def Alike {α β : Type} (Q : α → β → Prop) (x : Except FaultCode α) (y : Except FaultCode β) : Prop :=
  match x, y with
  | .ok a, .ok b => Q a b
  | .error c, .error c' => c = c'
  | _, _ => False

section Rules
variable {α β γ δ : Type} {P : α → β → Prop} {Q : γ → δ → Prop} {x : Except FaultCode α} {y : Except FaultCode β}

theorem Alike.ok {a : α} {b : β} (h : P a b) : Alike P (.ok a) (.ok b) := h

theorem Alike.bind {f : α → Except FaultCode γ} {g : β → Except FaultCode δ} (h : Alike P x y)
    (hf : ∀ a b, P a b → Alike Q (f a) (g b)) : Alike Q (x >>= f) (y >>= g) := by
  cases x with
  | ok a =>
    cases y with
    | ok b => exact hf a b h
    | error c => cases h
  | error c =>
    cases y with
    | ok b => cases h
    | error c' => exact h

/-- The same operation on both sides. -/
theorem Alike.same {f : α → Except FaultCode γ} {g : α → Except FaultCode δ} (hf : ∀ a, Alike Q (f a) (g a)) :
    Alike Q (x >>= f) (x >>= g) := by
  cases x with
  | ok a => exact hf a
  | error c => rfl

theorem Alike.if_error {p : Prop} [Decidable p] {c : FaultCode} (h : Alike P x y) :
    Alike P (if p then .error c else x) (if p then .error c else y) := by
  split
  · rfl
  · exact h

theorem Alike.if_else_error {p : Prop} [Decidable p] {c : FaultCode} (h : Alike P x y) :
    Alike P (if p then x else .error c) (if p then y else .error c) := by
  split
  · exact h
  · rfl

end Rules

/-! ### The shared operations (rules R160, R180) -/

section Shared
variable {i : Instr} {s : State} {x : DWord} {y : Vector DWord 128}

theorem appendOB_alike (b : Bytes) : Alike (Carried i s (s.withRV x y)) (appendOB s b) (appendOB (s.withRV x y) b) :=
  .same fun _ => .ok (.keeps rfl rfl rfl)

/-- What a read primitive has in hand on the two states: the same value, and states that differ in `R` and `V`. -/
abbrev ReadAlike (s : State) (x : DWord) (y : Vector DWord 128) {α : Type} (a b : α × State) : Prop :=
  b = (a.1, a.2.withRV x y) ∧ a.2.r = s.r ∧ a.2.v = s.v

theorem takeRC_alike (n : Nat) : Alike (ReadAlike s x y) (takeRC s n) (takeRC (s.withRV x y) n) :=
  .same fun _ => .ok ⟨rfl, rfl, rfl⟩

theorem readVarintRC_alike (n : Nat) : Alike (ReadAlike s x y) (readVarintRC n s) (readVarintRC n (s.withRV x y)) :=
  .same fun _ => .ok ⟨rfl, rfl, rfl⟩

/-- A read primitive that writes `R`. -/
theorem ReadAlike.setsR {α : Type} {a a' : α} {u u' : State} {z z' : DWord} (h : ReadAlike s x y (a, u) (a', u'))
    (hw : WritesR i) (hz : a' = a → z' = z) : Carried i s (s.withRV x y) (u.setR z) (u'.setR z') := by
  obtain ⟨hpair, -, hv⟩ := h
  obtain ⟨ha, rfl⟩ := Prod.mk.inj hpair
  rw [hz ha]
  exact .setsR hw hv rfl

/-- A read primitive that writes lanes of `V`. -/
theorem takeRC_setLanes_alike {n : Nat} {f : Bytes → List DWord}
    (hg : ∀ b, ResultOfV i fun v => setLanes v 0 (f b)) :
    Alike (Carried i s (s.withRV x y)) (takeRC s n >>= fun z => .ok (z.2.setV (setLanes s.v 0 (f z.1))))
      (takeRC (s.withRV x y) n >>= fun z => .ok (z.2.setV (setLanes (s.withRV x y).v 0 (f z.1)))) :=
  (takeRC_alike n).bind fun _ _ ⟨hb, hr, _⟩ => .ok (.setsV (hg _) hr rfl (by rw [hb]; rfl))

end Shared

/-! ### The lanes a command writes and reads (rules R101, R137, R167, R187) -/

theorem resultOfV_vset (lane : Byte) (arg : DWord) :
    ResultOfV (.vset lane arg) fun v => v.setIfInBounds lane.toNat arg := by
  refine fun v k hk hne => .inl ⟨rfl, ?_⟩
  by_contra hother
  exact hne ((getElem_setLane v lane.toNat arg k hk).trans (if_neg hother))

theorem resultOfV_rpack {i : Instr} (hop : opcNo i = 0x36 ∨ opcNo i = 0x37) (b : Bytes) (w : Nat) :
    ResultOfV i fun v => setLanes v 0 ((unpack b w (imm8Of i).toNat).map (BitVec.ofNat 64)) := by
  refine fun v k hk hne => .inr ⟨hop, ?_⟩
  by_contra hother
  exact hne ((getElem_setLanes_unpack v b w _ hk).trans (if_neg hother))

theorem lanes_congr {v y : Vector DWord 128} {n : Nat} (h : ∀ (k : Nat) (_ : k < 128), k < n → y[k] = v[k]) :
    lanes y n = lanes v n := by
  refine List.ext_getElem (by simp [lanes]) fun k hk _ => ?_
  simp only [lanes, List.length_take, Vector.length_toList] at hk
  simpa [lanes] using h k (by omega) (by omega)

/-! ### The commands -/

/-- The bodies of a command on two states that differ in `R` and `V` alone end alike; the two pack writes need the lanes
below their count to be the same. -/
theorem exec_bodies_alike (i : Instr) (s : State) (x : DWord) (y : Vector DWord 128)
    (hread : opcNo i = 0x26 ∨ opcNo i = 0x27 → ∀ (k : Nat) (_ : k < 128), k < (imm8Of i).toNat → y[k] = s.v[k]) :
    ∃ a b, exec i s = command i s a ∧ exec i (s.withRV x y) = command i (s.withRV x y) b ∧
      Alike (Carried i s (s.withRV x y)) a b := by
  cases i with
  | nop | obclr | rcunsl | rst0 | rst1 | rst2 | rst3 | rst4 | rst5 | dinit0 | dinit1 | dinit4 | dinit5 =>
    refine ⟨.ok _, .ok _, rfl, rfl, ?_⟩
    exact .ok (.keeps rfl rfl rfl)
  | obpoke | rcatt | rcslice =>
    refine ⟨_, _, rfl, rfl, ?_⟩
    exact .if_error (.ok (.keeps rfl rfl rfl))
  | vset lane arg =>
    refine ⟨.ok _, .ok _, rfl, rfl, ?_⟩
    exact .ok (.setsV (resultOfV_vset lane arg) rfl rfl rfl)
  | bitw32 | bitw64 | zze32 | zze64 | zzd32 | zzd64 | size0 | size1 | size2 | size3 | size4 | size5
  | est0 | est1 | est2 | est3 | est4 | est5 =>
    refine ⟨.ok _, .ok _, rfl, rfl, ?_⟩
    refine .ok (.setsR ?_ rfl rfl)
    simp [WritesR, opcNo, opcOf]
  | wfix32 | wfix64 | wvar32 | wvar64 | wzz32 | wzz64 | wpbool =>
    refine ⟨_, _, rfl, rfl, ?_⟩
    exact appendOB_alike _
  | wpack32 width count arg =>
    have hlanes : lanes y count.toNat = lanes s.v count.toNat := lanes_congr (hread (.inl rfl))
    refine ⟨_, appendOB (s.withRV x y) _, rfl, ?_, appendOB_alike _⟩
    rw [← hlanes]
    rfl
  | wpack64 width count arg =>
    have hlanes : lanes y count.toNat = lanes s.v count.toNat := lanes_congr (hread (.inr rfl))
    refine ⟨_, appendOB (s.withRV x y) _, rfl, ?_, appendOB_alike _⟩
    rw [← hlanes]
    rfl
  | rfix32 | rfix64 | rpbool =>
    refine ⟨_, _, rfl, rfl, ?_⟩
    refine (takeRC_alike _).bind fun ⟨_, _⟩ ⟨_, _⟩ h => .ok (h.setsR ?_ fun hvalue => by rw [hvalue])
    simp [WritesR, opcNo, opcOf]
  | rvar32 | rvar64 | rzz32 | rzz64 =>
    refine ⟨_, _, rfl, rfl, ?_⟩
    refine (readVarintRC_alike _).bind fun ⟨_, _⟩ ⟨_, _⟩ h => .ok (h.setsR ?_ fun hvalue => by rw [hvalue])
    simp [WritesR, opcNo, opcOf]
  | rpack32 width count arg =>
    refine ⟨_, _, rfl, rfl, ?_⟩
    exact takeRC_setLanes_alike fun b => resultOfV_rpack (i := .rpack32 width count arg) (.inl rfl) b _
  | rpack64 width count arg =>
    refine ⟨_, _, rfl, rfl, ?_⟩
    exact takeRC_setLanes_alike fun b => resultOfV_rpack (i := .rpack64 width count arg) (.inr rfl) b _
  | enc0 | enc1 | enc2 | enc3 | enc4 =>
    refine ⟨_, _, rfl, rfl, ?_⟩
    exact .if_error (.same fun _ => .ok (.keeps rfl rfl rfl))
  | enc5 =>
    refine ⟨_, _, rfl, rfl, ?_⟩
    exact .if_error (.same fun _ => .same fun _ => .ok (.keeps rfl rfl rfl))
  | fin0 | fin1 | fin2 | fin3 | fin4 | fin5 | dinit3 =>
    refine ⟨_, _, rfl, rfl, ?_⟩
    exact .same fun _ => .ok (.keeps rfl rfl rfl)
  | wto0 =>
    refine ⟨_, _, rfl, rfl, ?_⟩
    exact .same fun e => appendOB_alike (s := s.setE0 e) e.st
  | wto1 =>
    refine ⟨_, _, rfl, rfl, ?_⟩
    exact .same fun e => appendOB_alike (s := s.setE1 e) e.st
  | wto2 =>
    refine ⟨_, _, rfl, rfl, ?_⟩
    exact .same fun u => appendOB_alike (s := s.setE2 u) u.hyb.st
  | wto3 =>
    refine ⟨_, _, rfl, rfl, ?_⟩
    exact .same fun u => appendOB_alike (s := s.setE3 u) u.hyb.st
  | wto4 =>
    refine ⟨_, _, rfl, rfl, ?_⟩
    exact .same fun e => appendOB_alike (s := s.setE4 e) e.st
  | wto5 =>
    refine ⟨_, _, rfl, rfl, ?_⟩
    exact .same fun e => appendOB_alike (s := s.setE5 e) e.st
  | dec0 | dec1 | dec3 | dec4 | dec5 =>
    refine ⟨_, _, rfl, rfl, ?_⟩
    refine .if_else_error (.same fun _ => .ok (.setsR ?_ rfl rfl))
    simp [WritesR, opcNo, opcOf]

theorem command_illegal {i : Instr} {s : State} {body : Except FaultCode State} (hfault : s.fault = false)
    (hwf : i.wf = false) : command i s body = .next (enterFault .illegalCommand (encode i) s) := by
  unfold command
  rw [hfault, hwf]
  rfl

/-- Alike bodies behind the same prelude: both refused, both faulted alike, or both completed. -/
theorem command_alike {i : Instr} {s : State} {x : DWord} {y : Vector DWord 128} {a b : Except FaultCode State}
    (h : Alike (Carried i s (s.withRV x y)) a b) :
    ∃ t u, command i s a = .next t ∧ command i (s.withRV x y) b = .next u ∧ Carried i s (s.withRV x y) t u := by
  cases hfault : s.fault with
  | true => exact ⟨_, _, command_of_fault hfault, command_of_fault hfault, .keeps rfl rfl rfl⟩
  | false =>
    have hfault' : (s.withRV x y).fault = false := hfault
    cases hwf : i.wf with
    | false => exact ⟨_, _, command_illegal hfault hwf, command_illegal hfault' hwf, .keeps rfl rfl rfl⟩
    | true =>
      cases a with
      | ok t =>
        cases b with
        | ok u => exact ⟨t, u, command_ok hfault hwf rfl, command_ok hfault' hwf rfl, h⟩
        | error c => cases h
      | error c =>
        cases b with
        | ok u => cases h
        | error c' =>
          obtain rfl : c = c' := h
          exact ⟨_, _, command_error hfault hwf rfl, command_error hfault' hwf rfl, .keeps rfl rfl rfl⟩

/-- A command on two states that differ in `R` and `V` alone. -/
theorem exec_carried (i : Instr) (s : State) (x : DWord) (y : Vector DWord 128)
    (hread : opcNo i = 0x26 ∨ opcNo i = 0x27 → ∀ (k : Nat) (_ : k < 128), k < (imm8Of i).toNat → y[k] = s.v[k]) :
    ∃ t u, exec i s = .next t ∧ exec i (s.withRV x y) = .next u ∧ Carried i s (s.withRV x y) t u := by
  obtain ⟨a, b, ha, hb, halike⟩ := exec_bodies_alike i s x y hread
  rw [ha, hb]
  exact command_alike halike

/-! ### The statement -/

/-- Settles O15: on a state with another `R`, or with other lanes, the command ends as on `s` but for what that register
held. -/
theorem resultRegistersWrittenAndRead : Obligations.ResultRegistersWrittenAndRead := by
  intro i s t h
  have hcarried (x : DWord) (y : Vector DWord 128)
      (hread : opcNo i = 0x26 ∨ opcNo i = 0x27 → ∀ (k : Nat) (_ : k < 128), k < (imm8Of i).toNat → y[k] = s.v[k]) :
      ∃ u, exec i (s.withRV x y) = .next u ∧ Carried i s (s.withRV x y) t u := by
    obtain ⟨t', u, ht, hu, hc⟩ := exec_carried i s x y hread
    obtain rfl : t' = t := by injection ht.symm.trans h
    exact ⟨u, hu, hc⟩
  refine ⟨fun hr => ?writesR, fun k hk hv => ?writesV, fun x => ?readsR, fun y hread => ?readsV⟩
  case writesR =>
    obtain ⟨u, -, w, f, g, hf, -, rfl, -⟩ := hcarried s.r s.v fun _ _ _ _ => rfl
    rcases hf with rfl | ⟨hw, -⟩
    · exact absurd rfl hr
    · exact hw
  case writesV =>
    obtain ⟨u, -, w, f, g, -, hg, rfl, -⟩ := hcarried s.r s.v fun _ _ _ _ => rfl
    exact hg s.v k hk hv
  case readsR =>
    obtain ⟨u, hu, w, f, g, hf, -, rfl, rfl⟩ := hcarried x s.v fun _ _ _ _ => rfl
    refine ⟨_, hu, rfl, fun hr => ?_⟩
    rcases hf with rfl | ⟨-, r, rfl⟩
    · exact absurd rfl hr
    · rfl
  case readsV =>
    obtain ⟨u, hu, w, f, g, -, -, rfl, rfl⟩ := hcarried s.r y hread
    exact ⟨_, hu, rfl⟩

end Sys2Proof.Machine
end
